-- ==== Sys2Proof/Word.lean ====
section
/-! DEFINITION. The word types of the LegoIr IR modulator: the widths of its registers, operands and command words
(spec/00_scope.md R6, R9; spec/10_state.md R20; spec/92_eei_decisions.md D6, D20). -/

namespace Sys2Proof

/-- A 4-bit field of a message or a command word (`NIB_BITS` = 4, R6). -/
abbrev Nibble := BitVec 4

/-- The channel number 0..3; "2 bits wide, so every value it can hold is in range" (R21). -/
abbrev Channel := BitVec 2

/-- The identifier of the bound output line, `PIN_W` = 8 bits (R9, R24). The block never interprets it. -/
abbrev PinId := BitVec 8

/-- A command word, `CMD_W` = 16 bits (R9, R85). -/
abbrev CmdWord := BitVec 16

/-- A message, `MSG_BITS` = 16 bits (R6, R70). -/
abbrev Message := BitVec 16

/-- The segment timer, `TIMER_W` = 16 bits, counting ticks of 1 microsecond (R9, R30). -/
abbrev Ticks := BitVec 16

end Sys2Proof
end

