-- ==== Sys2Proof/Config.lean ====
section
/-! DEFINITION. The configuration record `K` (spec/00_scope.md R7 to R9), its reference profile `K_ref`, and the free
values: what the spec leaves without a value, as constants without a body. -/

namespace Sys2Proof

/-- The configuration `K`, "fixed before reset and never written by the hardware" (R7, R8; `HALF_OVERHEAD`: R9, R175).
Durations are whole numbers of microseconds. -/
structure Config where
  /-- `TOGGLE_MASK`: the bit of nib1 that carries the toggle. -/
  toggleMask : Nibble
  /-- `ESCAPE_MARKER`: the mark of a combo message in nib1. -/
  escapeMarker : Nibble
  /-- `SINGLE_OUTPUT_MODE`: the mode marker of SETPOWER in nib2. -/
  singleOutputMode : Nibble
  /-- `SINGLE_EXTENDED_MODE`: the mode marker of INC and DEC in nib2. -/
  singleExtendedMode : Nibble
  /-- `RED_SEL`: the output selector of the alias "red". -/
  redSel : Nibble
  /-- `BLUE_SEL`: the output selector of the alias "blue". -/
  blueSel : Nibble
  /-- `HALF_PERIOD`: the delay after each pin write of a burst. -/
  halfPeriod : Nat
  /-- `HIGH_PAUSE`: the pause after the burst of a data bit 1. -/
  highPause : Nat
  /-- `LOW_PAUSE`: the pause after the burst of a data bit 0. -/
  lowPause : Nat
  /-- `START_STOP_PAUSE`: the pause after a start or stop burst. -/
  startStopPause : Nat
  /-- `HALF_PERIOD_EN`: whether the half-period delay is applied, "a build-time constant" (R165). -/
  halfPeriodEn : Bool
  /-- `HALF_OVERHEAD`: the length of a half-cycle when `HALF_PERIOD_EN` is false (R175). -/
  halfOverhead : Nat
  deriving DecidableEq, Repr

/-- The reference profile `K_ref` (R7, R8). "One admissible argument, not a fact about the design"
(92_eei_decisions.md): no statement rests on these values.
`halfOverhead`: DESIGN CHOICE (log 8), the spec's `K_ref` gives it no value; with `halfPeriodEn` nothing reads it. -/
def Config.ref : Config where
  toggleMask := 0x8
  escapeMarker := 0x4
  singleOutputMode := 0x4
  singleExtendedMode := 0x6
  redSel := 0x0
  blueSel := 0x1
  halfPeriod := 13
  highPause := 553
  lowPause := 263
  startStopPause := 1026
  halfPeriodEn := true
  halfOverhead := 1

/-! The free values. Each is read at the model's own counter `State.draw`, so that two draws need not agree. Nothing can
be proved of a value: R34 gives these registers no value after reset ("it must not pick 0"), and R28 leaves `msg` and
`tog_pending` unspecified while the block is idle. DESIGN CHOICE (log 3, log 5). -/

/-- What `channel` holds between a reset step and the next INIT (R34). -/
opaque Config.freeChannel : Nat → Channel

/-- What `toggle` holds between a reset step and the next INIT (R34). -/
opaque Config.freeToggle : Nat → Bool

/-- What `pin` holds between a reset step and the next INIT (R34). -/
opaque Config.freePin : Nat → PinId

/-- What `msg` holds while the block is idle (R28, R34). -/
opaque Config.freeMsg : Nat → Message

/-- What `tog_pending` holds while the block is idle (R28, R34). -/
opaque Config.freeTogPending : Nat → Bool

end Sys2Proof
end

