-- ==== Sys2Proof/Syntax.lean ====
section
/-! DEFINITION. The command set (spec/30_encoding.md R84): the five commands of the command port and the two aliases,
one constructor per row of spec/opcode_table.json. `send` is private and is no command. -/

namespace Sys2Proof

/-- A command with its operands; the operand widths are those of R87 and R92 (an out-of-range level, selector or channel
cannot be expressed). -/
inductive Instr where
  /-- `INIT pin, channel` (R101). -/
  | init (pin : PinId) (channel : Channel)
  /-- `SETPOWER sel, level` (R111). -/
  | setPower (sel level : Nibble)
  /-- `INC sel` (R114). -/
  | inc (sel : Nibble)
  /-- `DEC sel` (R115). -/
  | dec (sel : Nibble)
  /-- `COMBO a, b`: `a` goes to nib2 and `b` to nib3, by position (R75, R131). -/
  | combo (a b : Nibble)
  /-- `SETRED level`: the alias of `SETPOWER K.RED_SEL, level`, without a command word of its own (R90, R112). -/
  | setRed (level : Nibble)
  /-- `SETBLUE level`: the alias of `SETPOWER K.BLUE_SEL, level`, without a command word of its own (R90, R113). -/
  | setBlue (level : Nibble)
  deriving DecidableEq, Repr

end Sys2Proof
end

