-- ==== Sys2Proof/WellFormed.lean ====
section
/-! DEFINITION. Well-formedness: of a configuration (spec/00_scope.md R10, W1 to W6) and of a command as a word on the
command port (spec/30_encoding.md R90). -/

namespace Sys2Proof

/-- W1: exactly one bit set, and disjoint from the channel bits. -/
def Config.maskWf (k : Config) : Bool :=
  k.toggleMask.cpop == 1 && k.toggleMask &&& 0x3 == 0

/-- W2: nonzero, disjoint from the channel bits and from the toggle mask. -/
def Config.escapeWf (k : Config) : Bool :=
  k.escapeMarker != 0 && k.escapeMarker &&& 0x3 == 0 && k.escapeMarker &&& k.toggleMask == 0

/-- W3: the two mode markers differ. -/
def Config.modesWf (k : Config) : Bool :=
  k.singleOutputMode != k.singleExtendedMode

/-- W4: red and blue stay distinguishable under both markers. -/
def Config.selectorsWf (k : Config) : Bool :=
  k.singleOutputMode ||| k.redSel != k.singleOutputMode ||| k.blueSel &&
  k.singleExtendedMode ||| k.redSel != k.singleExtendedMode ||| k.blueSel

/-- W5: no constant delay is zero, and the high pause is the longer one. The bound on `halfOverhead` is R9's and R175's
"at least 1 tick", which R10 does not repeat: DEDUCED (log 8). -/
def Config.pausesWf (k : Config) : Bool :=
  decide (1 ≤ k.halfPeriod) && decide (1 ≤ k.lowPause) && decide (k.lowPause < k.highPause) &&
  decide (1 ≤ k.startStopPause) && decide (1 ≤ k.halfOverhead)

/-- W6: every duration fits the timer (`LOW_PAUSE` does by W5; the longest gap, 1078, always does). -/
def Config.durationsWf (k : Config) : Bool :=
  decide (max (max (max k.halfPeriod k.highPause) (max k.startStopPause 1078)) k.halfOverhead < 2 ^ 16)

/-- R10: a configuration is well formed when W1 to W6 hold. -/
def Config.wf (k : Config) : Bool :=
  k.maskWf && k.escapeWf && k.modesWf && k.selectorsWf && k.pausesWf && k.durationsWf

/-- A command that has a command word of its own. The aliases have none: their "expansion is done before the command
port" (R90). -/
def Instr.wf : Instr → Bool
  | .init _ _ => true
  | .setPower _ _ => true
  | .inc _ => true
  | .dec _ => true
  | .combo _ _ => true
  | .setRed _ => false
  | .setBlue _ => false

end Sys2Proof
end

