-- ==== Sys2Proof/Decode.lean ====
section
/-! DEFINITION. The command word: the rows of spec/30_encoding.md R86, decoding (R87, R88), encoding (R85), and the
expansion of the two aliases before the command port (R90). -/

namespace Sys2Proof

/-- Why a command word is reserved (R88). The spec knows one refusal, `ReservedCommand`; the two names only say which of
R88's clauses applies. -/
inductive Reserved where
  /-- The opcode is 0x0 or 0x6 to 0xF. -/
  | opcode
  /-- The opcode is assigned, and a bit its format holds at zero is not zero. -/
  | zeroField
  deriving DecidableEq, Repr

/-- One row of R86: a word `w` is the row's when `(w & mask) == match`, and `operands` reads its fields (R87). -/
structure Row where
  mask : CmdWord
  pattern : CmdWord
  operands : CmdWord → Instr

/-- The rows of R86, in its order, with the operand fields of R87. -/
def rows : List Row :=
  [ ⟨0xFC00, 0x1000, fun w => .init (w.extractLsb' 0 8) (w.extractLsb' 8 2)⟩,
    ⟨0xFF00, 0x2000, fun w => .setPower (w.extractLsb' 4 4) (w.extractLsb' 0 4)⟩,
    ⟨0xFF0F, 0x3000, fun w => .inc (w.extractLsb' 4 4)⟩,
    ⟨0xFF0F, 0x4000, fun w => .dec (w.extractLsb' 4 4)⟩,
    ⟨0xFF00, 0x5000, fun w => .combo (w.extractLsb' 4 4) (w.extractLsb' 0 4)⟩ ]

/-- The row selects the word. -/
def Row.covers (r : Row) (w : CmdWord) : Bool :=
  w &&& r.mask == r.pattern

/-- Which clause of R88 a word that no row selects falls under. -/
def reservedReason (w : CmdWord) : Reserved :=
  let op : Nibble := w.extractLsb' 12 4
  if op = 0x0 ∨ 0x6 ≤ op then .opcode else .zeroField

/-- The command a word on the port stands for, or why it is reserved. An alias is never the answer: its expansion is done
before the port (R90). -/
def decode (w : CmdWord) : Except Reserved Instr :=
  match rows.find? (·.covers w) with
  | some r => .ok (r.operands w)
  | none => .error (reservedReason w)

/-- The command word of a command that has one, by the formats of R85: `I` for INIT, `P` for two nibbles, `S` for one. -/
def encode : Instr → Option CmdWord
  | .init pin channel => some (0x1#4 ++ 0#2 ++ channel ++ pin)
  | .setPower sel level => some (0x2#4 ++ 0#4 ++ sel ++ level)
  | .inc sel => some (0x3#4 ++ 0#4 ++ sel ++ 0#4)
  | .dec sel => some (0x4#4 ++ 0#4 ++ sel ++ 0#4)
  | .combo a b => some (0x5#4 ++ 0#4 ++ a ++ b)
  | .setRed _ => none
  | .setBlue _ => none

/-- The command that goes to the port: the aliases are expanded, every other command is itself (R90, R112, R113). -/
def expand (k : Config) : Instr → Instr
  | .setRed level => .setPower k.redSel level
  | .setBlue level => .setPower k.blueSel level
  | .init pin channel => .init pin channel
  | .setPower sel level => .setPower sel level
  | .inc sel => .inc sel
  | .dec sel => .dec sel
  | .combo a b => .combo a b

/-- The command the decoder reads from the table's numbering of a word. A command is one 16-bit word, presented "whole on
a parallel port" (R58, R85), so bit 0 of the table is bit 0 of the word; bits above `nbits` are 0, and a row longer than
one word does not exist. -/
def decodeTableWord (nbits w : Nat) : Option Instr :=
  if nbits ≤ 16 then
    match decode (BitVec.ofNat 16 (w % 2 ^ nbits)) with
    | .ok i => some i
    | .error _ => none
  else none

end Sys2Proof
end

