-- ==== Sys2Proof/Machine/State.lean ====
section
/-! DEFINITION. The state of the block (spec/10_state.md R20 to R30) as plain data, the reasons a step can stop
(spec/60_exceptions.md R202), and the state after reset (R34, R230). -/

namespace Sys2Proof.Machine

/-- The level of the output line: LOW = 0 (inactive), HIGH = 1 (active) (R14, R55). -/
inductive Level where
  | low
  | high
  deriving DecidableEq, Repr

/-- The sequencer position `pos`, "this block's program counter" (R29), by phase. R29's record has four fields `phase`,
`rep` (0..4), `bit` (0..15) and `half` (0..11), of which a phase uses some and holds the others at 0; a constructor
carries exactly the fields its phase uses, in the order `rep`, `bit`, `half`. The record view is `Pos.phase`, `Pos.rep`,
`Pos.bit`, `Pos.half` (Machine/Ops.lean). DESIGN CHOICE (log 7). -/
inductive Pos where
  | idle
  | gap (rep : Fin 5)
  | startBurst (rep : Fin 5) (half : Fin 12)
  | startPause (rep : Fin 5)
  | dataBurst (rep : Fin 5) (bit : Fin 16) (half : Fin 12)
  | dataPause (rep : Fin 5) (bit : Fin 16)
  | stopBurst (rep : Fin 5) (half : Fin 12)
  | stopPause (rep : Fin 5)
  deriving DecidableEq, Repr

/-- What the host drives on the input ports in one step: `rst` (R230), `cmd_valid` and `cmd_word` (R56). -/
structure PortInput where
  rst : Bool
  cmdValid : Bool
  cmdWord : CmdWord
  deriving DecidableEq, Repr

/-- The state: the ten registers of R20, and three fields of the model's own. -/
structure State where
  /-- `channel` (R21). -/
  channel : Channel
  /-- `toggle`, the flip-flop `T`; `true` is 1 (R22). -/
  toggle : Bool
  /-- `pin` (R24). -/
  pin : PinId
  /-- `cfg_valid`: an INIT has been executed since reset (R26). -/
  cfgValid : Bool
  /-- `oe`: the line is configured as an output (R27). -/
  oe : Bool
  /-- `out`: the level last written to the line (R27). -/
  out : Level
  /-- `msg`: the message being transmitted (R28). -/
  msg : Message
  /-- `tog_pending`: the command in flight flips `toggle` when it ends (R28). -/
  togPending : Bool
  /-- `pos`: the sequencer position (R29). -/
  pos : Pos
  /-- `timer`: the ticks the current segment still lasts, the current one included (R30). -/
  timer : Ticks
  /-- The MODEL's own field: the configuration `K`, which no step writes (R31). DESIGN CHOICE (log 1). -/
  k : Config
  /-- The MODEL's own field: what the host will drive on the ports, one entry a step, the next step's first. When the
  list is used up the host waits (`rst` = 0, `cmd_valid` = 0). DESIGN CHOICE (log 2). -/
  host : List PortInput
  /-- The MODEL's own field: how many free values have been drawn (log 4). -/
  draw : Nat
  deriving DecidableEq, Repr

/-- The faults (R202). -/
inductive Fault where
  /-- F1 `UseBeforeInit` (R203): raised by every transmit command accepted while `cfg_valid` is 0. Safe: the spec gives
  the run no meaning from there on, and the model stops. -/
  | useBeforeInit
  deriving DecidableEq, Repr

/-- The refusals (R202), and the pipeline's own for an instruction without a meaning. -/
inductive Refusal where
  /-- X1 `ReservedCommand` (R204): raised by an acceptance step whose word matches no row of R86. Safe: the spec gives the
  word no meaning. -/
  | reservedCommand
  /-- X2 `BadConfig` (R206): raised by every step under a configuration that is not well formed. Safe: nothing runs. -/
  | badConfig
  /-- Raised by an arm of `exec` whose instruction has no meaning yet; no arm raises it in this model. Safe. -/
  | notModelled (mnemonic : String)
  deriving DecidableEq, Repr

/-- The state after a reset step (R34, R230), under the reference profile and with a host that waits.
The five registers R34 leaves "unspecified" hold the free values of draw 0: DESIGN CHOICE (log 3).
The configuration: DESIGN CHOICE (log 1). -/
def State.reset : State where
  channel := Config.freeChannel 0
  toggle := Config.freeToggle 0
  pin := Config.freePin 0
  cfgValid := false
  oe := false
  out := .low
  msg := Config.freeMsg 0
  togPending := Config.freeTogPending 0
  pos := .idle
  timer := 0
  k := Config.ref
  host := []
  draw := 1

end Sys2Proof.Machine
end

