-- ==== Sys2Proof/Machine/Operands.lean ====
section
/-! DEFINITION. The framer: the nibbles of a message from operands, `channel` and `toggle` (spec/30_encoding.md R70 to
R77), the checksum and the assembly (spec/43_framer.md R140, R142), and the frame of each command (R144). -/

namespace Sys2Proof.Machine

/-- `checksum(n1, n2, n3) = 0xF ^ n1 ^ n2 ^ n3` (R140). -/
def checksum (n1 n2 n3 : Nibble) : Nibble :=
  0xF ^^^ n1 ^^^ n2 ^^^ n3

/-- `assemble(n1, n2, n3) = nib1<<12 | nib2<<8 | nib3<<4 | checksum` (R142). -/
def assemble (n1 n2 n3 : Nibble) : Message :=
  (n1.setWidth 16 <<< 12) ||| (n2.setWidth 16 <<< 8) ||| (n3.setWidth 16 <<< 4) ||| (checksum n1 n2 n3).setWidth 16

/-- The toggle's contribution to nib1: `K.TOGGLE_MASK` when it is 1, else 0 (R71). -/
def toggleBits (k : Config) (toggle : Bool) : Nibble :=
  if toggle then k.toggleMask else 0x0

/-- nib1 of a single output message, "toggle|channel" (R71). -/
def nib1Single (k : Config) (channel : Channel) (toggle : Bool) : Nibble :=
  toggleBits k toggle ||| channel.setWidth 4

/-- nib1 of a combo message, "ESCAPE_MARKER|channel" (R72). -/
def nib1Combo (k : Config) (channel : Channel) : Nibble :=
  k.escapeMarker ||| channel.setWidth 4

/-- What the framer hands to the sequencer: the three nibbles, and the value loaded into `tog_pending` (R144). -/
structure Frame where
  nib1 : Nibble
  nib2 : Nibble
  nib3 : Nibble
  toggles : Bool
  deriving DecidableEq, Repr

/-- The frame's 16-bit message (R143). -/
def Frame.message (f : Frame) : Message :=
  assemble f.nib1 f.nib2 f.nib3

/-- The common form of the single output commands (R110). -/
def singleFrame (k : Config) (channel : Channel) (toggle : Bool) (nib2 nib3 : Nibble) : Frame :=
  ⟨nib1Single k channel toggle, nib2, nib3, true⟩

/-- SETPOWER: nib2 is "SINGLE_OUTPUT_MODE|output_selector", nib3 the level (R73, R76, R111). -/
def setPowerFrame (k : Config) (channel : Channel) (toggle : Bool) (sel level : Nibble) : Frame :=
  singleFrame k channel toggle (k.singleOutputMode ||| sel) level

/-- INC: nib2 is "SINGLE_EXTENDED_MODE|output_selector", nib3 the fixed payload 0x4 (R74, R76, R114). -/
def incFrame (k : Config) (channel : Channel) (toggle : Bool) (sel : Nibble) : Frame :=
  singleFrame k channel toggle (k.singleExtendedMode ||| sel) 0x4

/-- DEC: as INC with the fixed payload 0x5 (R74, R76, R115). -/
def decFrame (k : Config) (channel : Channel) (toggle : Bool) (sel : Nibble) : Frame :=
  singleFrame k channel toggle (k.singleExtendedMode ||| sel) 0x5

/-- COMBO: nib2 is the first operand, nib3 the second; the toggle does not enter and is not flipped (R72, R75, R131). -/
def comboFrame (k : Config) (channel : Channel) (a b : Nibble) : Frame :=
  ⟨nib1Combo k channel, a, b, false⟩

end Sys2Proof.Machine
end

