-- ==== Sys2Proof/Machine/Flags.lean ====
section
/-! DEFINITION. The block's only status flag, `toggle`: "set and cleared as said here, read only by the framer"
(spec/10_state.md R22). No arithmetic sets a flag (spec/43_framer.md R148). -/

namespace Sys2Proof.Machine

/-- INIT writes 0 (R101). -/
def State.clearToggle (s : State) : State :=
  { s with toggle := false }

/-- The flip `x[toggle] <- x[toggle] ^ 1` (R147), done when `tog_pending` is 1 (R184). -/
def State.flipToggleIfPending (s : State) : State :=
  { s with toggle := s.toggle ^^ s.togPending }

end Sys2Proof.Machine
end

