-- ==== Sys2Proof/Machine/Ops.lean ====
section
/-! DEFINITION. The named operations over the registers and the ports: the record view of `pos` (spec/10_state.md R29),
the output ports (R32, R57), the input ports (R56, R181), the pin actions (spec/00_scope.md R14), reset (R230).
There is no trap to take and none to return from: "There is no trap mechanism" (spec/60_exceptions.md R210, R211); and no
memory (spec/20_memory.md R50). -/

namespace Sys2Proof.Machine

/-! ## The record view of the position (R29) -/

/-- `pos.phase`. -/
inductive Phase where
  | idle | gap | startBurst | startPause | dataBurst | dataPause | stopBurst | stopPause
  deriving DecidableEq, Repr

def Pos.phase : Pos → Phase
  | .idle => .idle
  | .gap _ => .gap
  | .startBurst _ _ => .startBurst
  | .startPause _ => .startPause
  | .dataBurst _ _ _ => .dataBurst
  | .dataPause _ _ => .dataPause
  | .stopBurst _ _ => .stopBurst
  | .stopPause _ => .stopPause

/-- `pos.rep`, 0 while idle. -/
def Pos.rep : Pos → Fin 5
  | .idle => 0
  | .gap r => r
  | .startBurst r _ => r
  | .startPause r => r
  | .dataBurst r _ _ => r
  | .dataPause r _ => r
  | .stopBurst r _ => r
  | .stopPause r => r

/-- `pos.bit`, 0 outside the data phases. -/
def Pos.bit : Pos → Fin 16
  | .dataBurst _ b _ => b
  | .dataPause _ b => b
  | .idle => 0
  | .gap _ => 0
  | .startBurst _ _ => 0
  | .startPause _ => 0
  | .stopBurst _ _ => 0
  | .stopPause _ => 0

/-- `pos.half`, 0 outside the burst phases. -/
def Pos.half : Pos → Fin 12
  | .startBurst _ h => h
  | .dataBurst _ _ h => h
  | .stopBurst _ h => h
  | .idle => 0
  | .gap _ => 0
  | .startPause _ => 0
  | .dataPause _ _ => 0
  | .stopPause _ => 0

/-! ## Output ports: functions of the state alone (R32) -/

/-- `cmd_ready`. -/
def State.cmdReady (s : State) : Bool :=
  decide (s.pos = .idle)

/-- `busy`. -/
def State.busy (s : State) : Bool :=
  !s.cmdReady

/-- `ir_out`. -/
def State.irOut (s : State) : Level :=
  s.out

/-- `pin_oe`. -/
def State.pinOe (s : State) : Bool :=
  s.oe

/-- `pin_id`; a free value while `cfg_valid` is 0. -/
def State.pinId (s : State) : PinId :=
  s.pin

/-- What the block drives on the line the world sees: `ir_out` when `pin_oe` is 1, nothing when it is 0 (R57). -/
def State.line (s : State) : Option Level :=
  if s.oe then some s.out else none

/-! ## Input ports (R56, R181) -/

/-- A host that waits: `rst` = 0 and `cmd_valid` = 0 (R251). The word is not looked at. -/
def PortInput.wait : PortInput :=
  ⟨false, false, 0⟩

/-- A host that offers a word (R251). -/
def PortInput.offer (w : CmdWord) : PortInput :=
  ⟨false, true, w⟩

/-- The inputs the present step reads; a host with no more inputs waits (log 2). -/
def State.portInput (s : State) : PortInput :=
  s.host.headD .wait

/-- The inputs of the present step are gone with it: nothing of an offer is remembered (R56, R207). -/
def State.takeInput (s : State) : State :=
  { s with host := s.host.tail }

/-! ## Actions on the world (R14) -/

/-- The three actions; the list a command emits is its action trace. -/
inductive Action where
  /-- `PinMode(p, OUTPUT)`. -/
  | pinMode (p : PinId)
  /-- `PinWrite(p, l)`. -/
  | pinWrite (p : PinId) (l : Level)
  /-- `Delay(d)`, in microseconds. -/
  | delay (d : Nat)
  deriving DecidableEq, Repr

/-- What an action writes: `PinMode` is "the write `x[oe] <- 1`" and `PinWrite` "the write `x[out] <- l`" (R57); a `Delay`
writes nothing. -/
def State.act (s : State) : Action → State
  | .pinMode _ => { s with oe := true }
  | .pinWrite _ l => { s with out := l }
  | .delay _ => s

/-! ## Registers written together -/

/-- INIT's registers `pin`, `channel`, `toggle`, `cfg_valid` (R101). -/
def State.configure (s : State) (pin : PinId) (channel : Channel) : State :=
  { s.clearToggle with pin := pin, channel := channel, cfgValid := true }

/-- `msg` and `tog_pending` become unspecified when a transmission ends (R28): free values, DESIGN CHOICE (log 5). -/
def State.releaseMessage (s : State) : State :=
  { s with msg := Config.freeMsg s.draw, togPending := Config.freeTogPending s.draw, draw := s.draw + 1 }

/-- A reset step: "whatever the state and the other inputs, the next state is the reset state" (R230). `channel`,
`toggle`, `pin`, `msg` and `tog_pending` are "without value" afterwards: fresh free values, DESIGN CHOICE (log 3). -/
def State.resetStep (s : State) : State :=
  { channel := Config.freeChannel s.draw
    toggle := Config.freeToggle s.draw
    pin := Config.freePin s.draw
    cfgValid := false
    oe := false
    out := .low
    msg := Config.freeMsg s.draw
    togPending := Config.freeTogPending s.draw
    pos := .idle
    timer := 0
    k := s.k
    host := s.host
    draw := s.draw + 1 }

end Sys2Proof.Machine
end

