-- ==== Sys2Proof/Machine/Sequencer.lean ====
section
/-! DEFINITION. The sequencer: the gap schedule (spec/44_sequencer.md R162), the segment and the successor of a position
(R178 to R180), the acceptance of a transmission (R182), the busy step (R183) and the end of a transmission (R184). -/

namespace Sys2Proof.Machine

/-- `gap_units(rep, ch)` (R162). The 6 is the document's deliberate deviation, preserved (R171). -/
def gapUnits (rep : Fin 5) (channel : Channel) : Nat :=
  if rep.val = 0 then 4 - (channel.toNat + 1)
  else if rep.val ≤ 2 then 5
  else 6 + (channel.toNat + 1) * 2

/-- `gap_us(rep, ch)`: `GAP_UNIT` = 77 microseconds a unit (R6, R162). -/
def gapUs (rep : Fin 5) (channel : Channel) : Nat :=
  77 * gapUnits rep channel

/-- `t_half`, the length of every half-cycle of a burst (R175). -/
def tHalf (k : Config) : Nat :=
  if k.halfPeriodEn then k.halfPeriod else k.halfOverhead

/-- The pause after the burst of a data bit, "the actual PWM data encoding" (R79, R167). -/
def dataPauseUs (k : Config) (bit : Bool) : Nat :=
  if bit then k.highPause else k.lowPause

/-- A segment of the output waveform: a level and how long it lasts (R174). -/
structure Segment where
  level : Level
  ticks : Nat
  deriving DecidableEq, Repr

/-- The level of a half-cycle: "even = pin high, odd = pin low" (R29). -/
def halfLevel (half : Fin 12) : Level :=
  if half.val % 2 = 0 then .high else .low

/-- `seg(pos)` (R178). The spec gives IDLE no segment; the line is low then (R219), and no rule uses the entry. -/
def seg (k : Config) (channel : Channel) (msg : Message) : Pos → Segment
  | .idle => ⟨.low, 0⟩
  | .gap r => ⟨.low, gapUs r channel⟩
  | .startBurst _ h => ⟨halfLevel h, tHalf k⟩
  | .startPause _ => ⟨.low, k.startStopPause⟩
  | .dataBurst _ _ h => ⟨halfLevel h, tHalf k⟩
  | .dataPause _ b => ⟨.low, dataPauseUs k (msg.getLsbD b.val)⟩
  | .stopBurst _ h => ⟨halfLevel h, tHalf k⟩
  | .stopPause _ => ⟨.low, k.startStopPause⟩

/-- `next(pos)`, with `none` for END (R179). The spec gives IDLE no successor, and no step asks for one. -/
def Pos.next : Pos → Option Pos
  | .idle => none
  | .gap r => some (.startBurst r 0)
  | .startBurst r h => some (if h.val < 11 then .startBurst r (h + 1) else .startPause r)
  | .startPause r => some (.dataBurst r 15 0)
  | .dataBurst r b h => some (if h.val < 11 then .dataBurst r b (h + 1) else .dataPause r b)
  | .dataPause r b => some (if 0 < b.val then .dataBurst r (b - 1) 0 else .stopBurst r 0)
  | .stopBurst r h => some (if h.val < 11 then .stopBurst r (h + 1) else .stopPause r)
  | .stopPause r => if r.val < 4 then some (.gap (r + 1)) else none

/-- `first(ch)`: a zero gap is skipped entirely (R164, R180). -/
def firstPos (channel : Channel) : Pos :=
  if gapUs 0 channel = 0 then .startBurst 0 0 else .gap 0

/-- Enter a position: its segment goes to `timer` and `out` (R182, R183). The timer is exact for a well-formed `K` (W6). -/
def State.enter (s : State) (p : Pos) : State :=
  let g := seg s.k s.channel s.msg p
  { s with pos := p, timer := BitVec.ofNat 16 g.ticks, out := g.level }

/-- The part of the acceptance step common to the transmit commands (R182): the fault of R203, or the message, the pending
flip and the first segment "evaluated with the new `x[msg]`". The fault is decided before any write (R212). -/
def State.transmit (s : State) (f : Frame) : Host.Outcome State Fault Refusal :=
  if s.cfgValid then
    .next ({ s with msg := f.message, togPending := f.toggles }.enter (firstPos s.channel))
  else .fault .useBeforeInit

/-- The end of a transmission (R184): idle, the timer 0, the pending flip done, `out` as it is; the message is then
unspecified (R28). -/
def State.finish (s : State) : State :=
  ({ s with pos := .idle, timer := 0 }).flipToggleIfPending.releaseMessage

/-- A busy step (R183): count down, or enter the next position, or end. A timer of 0 while busy, which no run reaches
(R33 I2), is taken as the last tick, as the spec's `else` is written. -/
def State.busyStep (s : State) : State :=
  if 1 < s.timer then { s with timer := s.timer - 1 }
  else match s.pos.next with
    | some p => s.enter p
    | none => s.finish

end Sys2Proof.Machine
end

