-- ==== Sys2Proof/Machine/Combo.lean ====
section
/-! DEFINITION. The COMBO command (spec/42_combo.md). -/

namespace Sys2Proof.Machine

/-- `COMBO a, b` (R131): `toggle` "is neither read nor written". -/
def execCombo (a b : Nibble) (s : State) : Host.Outcome State Fault Refusal :=
  s.transmit (comboFrame s.k s.channel a b)

end Sys2Proof.Machine
end

