-- ==== Sys2Proof/Machine/Init.lean ====
section
/-! DEFINITION. The INIT command (spec/40_init.md). -/

namespace Sys2Proof.Machine

/-- INIT's action trace: mode first, then the inactive level, with the new pin as argument (R101). -/
def initTrace (pin : PinId) : List Action :=
  [.pinMode pin, .pinWrite pin .low]

/-- `INIT pin, channel` (R101): the four registers, then the two actions. It cannot fault, and it leaves `msg`,
`tog_pending`, `pos` and `timer` alone (R104). -/
def execInit (pin : PinId) (channel : Channel) (s : State) : Host.Outcome State Fault Refusal :=
  .next ((initTrace pin).foldl State.act (s.configure pin channel))

end Sys2Proof.Machine
end

