-- ==== Sys2Proof/Machine/SingleOutput.lean ====
section
/-! DEFINITION. The single output commands and their two aliases (spec/41_single_output.md). Each is its frame
(Machine/Operands.lean), read from the registers before the step (R143, R145), handed to the sequencer; the flip of
`toggle` is the last thing the transmission does (R110, R184). -/

namespace Sys2Proof.Machine

/-- `SETPOWER sel, level` (R111). -/
def execSetPower (sel level : Nibble) (s : State) : Host.Outcome State Fault Refusal :=
  s.transmit (setPowerFrame s.k s.channel s.toggle sel level)

/-- `SETRED level`, that is `SETPOWER K.RED_SEL, level` (R112). -/
def execSetRed (level : Nibble) (s : State) : Host.Outcome State Fault Refusal :=
  s.transmit (setPowerFrame s.k s.channel s.toggle s.k.redSel level)

/-- `SETBLUE level`, that is `SETPOWER K.BLUE_SEL, level` (R113). -/
def execSetBlue (level : Nibble) (s : State) : Host.Outcome State Fault Refusal :=
  s.transmit (setPowerFrame s.k s.channel s.toggle s.k.blueSel level)

/-- `INC sel` (R114). -/
def execInc (sel : Nibble) (s : State) : Host.Outcome State Fault Refusal :=
  s.transmit (incFrame s.k s.channel s.toggle sel)

/-- `DEC sel` (R115). -/
def execDec (sel : Nibble) (s : State) : Host.Outcome State Fault Refusal :=
  s.transmit (decFrame s.k s.channel s.toggle sel)

end Sys2Proof.Machine
end

