-- ==== Sys2Proof/Machine/Dispatch.lean ====
section
/-! DEFINITION. What each command does when the command port accepts it (spec/44_sequencer.md R182). -/

namespace Sys2Proof.Machine

def exec (i : Instr) (s : State) : Host.Outcome State Fault Refusal :=
  match i with
  | .init pin channel => Sys2Proof.Machine.execInit pin channel s
  | .setPower sel level => Sys2Proof.Machine.execSetPower sel level s
  | .inc sel => Sys2Proof.Machine.execInc sel s
  | .dec sel => Sys2Proof.Machine.execDec sel s
  | .combo a b => Sys2Proof.Machine.execCombo a b s
  | .setRed level => Sys2Proof.Machine.execSetRed level s
  | .setBlue level => Sys2Proof.Machine.execSetBlue level s

end Sys2Proof.Machine
end

