-- ==== Sys2Proof/Machine/Port.lean ====
section
/-! DEFINITION. The four cases of a step (spec/44_sequencer.md R181) and the acceptance of a command word (R182). -/

namespace Sys2Proof.Machine

/-- The acceptance step: "the check for a reserved word comes first" (R182, R212). -/
def State.accept (s : State) (w : CmdWord) : Host.Outcome State Fault Refusal :=
  match decode w with
  | .ok i => exec i s
  | .error _ => .refused .reservedCommand

/-- One step under the given inputs, in the priority of R181: reset, busy, acceptance, idle. -/
def State.stepWith (s : State) (inp : PortInput) : Host.Outcome State Fault Refusal :=
  if inp.rst then .next s.resetStep
  else if s.busy then .next s.busyStep
  else if inp.cmdValid then s.accept inp.cmdWord
  else .next s

/-- A configuration that is not well formed is refused (R206), before anything runs. As no step writes `k`, asking in
every step is asking before the first (log 10). -/
def State.tick (s : State) : Host.Outcome State Fault Refusal :=
  if s.k.wf then s.takeInput.stepWith s.portInput else .refused .badConfig

/-- The port holding the word `w` in the next step, and a sequencer that is ready for it (log 6). -/
def State.offerNext (s : State) (w : CmdWord) : State :=
  { s with host := .offer w :: s.host.tail, pos := .idle, timer := 0, out := .low }

end Sys2Proof.Machine
end

