-- ==== Sys2Proof/Machine/Step.lean ====
section
/-! DEFINITION. One step of the machine, which is one tick of 1 microsecond (spec/44_sequencer.md R181). -/

namespace Sys2Proof.Machine

/-- One tick, with the inputs the host drives in it. -/
def step (s : State) : Host.Outcome State Fault Refusal :=
  s.tick

/-- The state with a command word on the port, so that the next step accepts it. The block fetches nothing (R63): a
command comes to it on the command port. A word is one 16-bit unit, so `nbits` only cuts the word (log 6). -/
def State.withFetchWord (s : State) (nbits w : Nat) : State :=
  s.offerNext (BitVec.ofNat 16 (w % 2 ^ nbits))

end Sys2Proof.Machine
end

