-- ==== Sys2Proof/Machine/Trace.lean ====
section
/-! DEFINITION. `send` at the command level: the action trace it emits (spec/44_sequencer.md part 1, R160 to R170), and
the waveform a trace defines (part 2, R174 to R177). A trace "is a record of output, not state" (spec/10_state.md R31). -/

namespace Sys2Proof.Machine

/-- The repetition indices (R161): `REPEAT` = 5. -/
def repetitions : List (Fin 5) :=
  [0, 1, 2, 3, 4]

/-- The order in which the bits of a message are sent, "most-significant first" (R58, R160). -/
def bitOrder : List (Fin 16) :=
  [15, 14, 13, 12, 11, 10, 9, 8, 7, 6, 5, 4, 3, 2, 1, 0]

/-- The half-period delay, emitted only when `K.HALF_PERIOD_EN` is true (R165). -/
def halfDelay (k : Config) : List Action :=
  if k.halfPeriodEn then [.delay k.halfPeriod] else []

/-- One cycle of a burst: pin high, pin low, each with its half-period delay (R165). -/
def cycleTrace (k : Config) (p : PinId) : List Action :=
  .pinWrite p .high :: (halfDelay k ++ .pinWrite p .low :: halfDelay k)

/-- `burst(p)`: `BURST_CYCLES` = 6 cycles (R6, R165). -/
def burstTrace (k : Config) (p : PinId) : List Action :=
  (List.replicate 6 (cycleTrace k p)).flatten

/-- `start_stop(p)`: the start bit (R166) and the stop bit (R169). -/
def startStopTrace (k : Config) (p : PinId) : List Action :=
  burstTrace k p ++ [.delay k.startStopPause]

/-- `data_bit(p, b)` (R167). -/
def dataBitTrace (k : Config) (p : PinId) (b : Bool) : List Action :=
  burstTrace k p ++ [.delay (dataPauseUs k b)]

/-- `gap(rep, ch)`: a zero gap emits nothing (R164). -/
def gapTrace (channel : Channel) (rep : Fin 5) : List Action :=
  if gapUs rep channel = 0 then [] else [.delay (gapUs rep channel)]

/-- One repetition without its gap: start bit, the sixteen data bits, stop bit (R160). -/
def messageTrace (k : Config) (p : PinId) (msg : Message) : List Action :=
  startStopTrace k p ++ bitOrder.flatMap (fun i => dataBitTrace k p (msg.getLsbD i.val)) ++ startStopTrace k p

/-- `send(p, ch, m)` (R160). -/
def sendTrace (k : Config) (p : PinId) (channel : Channel) (msg : Message) : List Action :=
  repetitions.flatMap (fun rep => gapTrace channel rep ++ messageTrace k p msg)

/-- The number of `PinWrite` actions of a trace (R170). -/
def pinWrites (t : List Action) : Nat :=
  t.countP fun
    | .pinWrite _ _ => true
    | .pinMode _ => false
    | .delay _ => false

/-- The configuration whose half-period delay is `t_half` whatever `HALF_PERIOD_EN` says: its traces are those of `k`
"with every half-cycle given" its hold time (R175, R186). -/
def heldConfig (k : Config) : Config :=
  { k with halfPeriod := tHalf k, halfPeriodEn := true }

/-! ## Waveforms -/

/-- The waveform of a trace, from the level `l` of the line before it (R174). -/
def waveform (l : Level) : List Action → List Segment
  | [] => []
  | .pinMode _ :: t => waveform l t
  | .pinWrite _ v :: t => waveform v t
  | .delay d :: t => ⟨l, d⟩ :: waveform l t

/-- Put a segment before a merged waveform. -/
def consMerged (g : Segment) : List Segment → List Segment
  | [] => [g]
  | h :: t => if g.level = h.level then ⟨g.level, g.ticks + h.ticks⟩ :: t else g :: h :: t

/-- The merged form: adjacent segments of equal level become one (R174). -/
def merged : List Segment → List Segment
  | [] => []
  | g :: t => consMerged g (merged t)

/-- The levels of the line, tick by tick. -/
def samples (w : List Segment) : List Level :=
  w.flatMap fun g => List.replicate g.ticks g.level

/-- The number of 1 bits of a message, `ones(m)` (R176). -/
def ones (m : Message) : Nat :=
  (bitOrder.filter fun i => m.getLsbD i.val).length

/-- The ticks of one repetition without its gap (R176). -/
def repetitionTicks (k : Config) (m : Message) : Nat :=
  18 * 12 * tHalf k + 2 * k.startStopPause + ones m * k.highPause + (16 - ones m) * k.lowPause

/-- The ticks of a whole `send`, `T` (R176, R250). -/
def sendTicks (k : Config) (channel : Channel) (m : Message) : Nat :=
  77 * (29 + 3 * channel.toNat) + 5 * repetitionTicks k m

end Sys2Proof.Machine
end

