-- ==== Sys2Proof/Machine/Command.lean ====
section
/-! DEFINITION. The command level (spec/92_eei_decisions.md D1): a command maps the registers and its operands to the
registers after it and its action trace (spec/40_init.md R101, spec/41_single_output.md R110, spec/42_combo.md R131), and
a sequence of commands is the fold of the command rules (spec/20_memory.md R61). -/

namespace Sys2Proof.Machine

/-- The registers the command rules speak of; `msg`, `tog_pending`, `pos` and `timer` are the tick level's. -/
structure Regs where
  channel : Channel
  toggle : Bool
  pin : PinId
  cfgValid : Bool
  oe : Bool
  out : Level
  deriving DecidableEq, Repr

/-- The command-level view of a state. -/
def State.regs (s : State) : Regs :=
  ⟨s.channel, s.toggle, s.pin, s.cfgValid, s.oe, s.out⟩

/-- What a command asks for: INIT's registers, or the transmission of a frame (R104, R144). -/
inductive Effect where
  | configure (pin : PinId) (channel : Channel)
  | transmit (f : Frame)
  deriving DecidableEq, Repr

/-- The effect of a command issued with the given channel and toggle (R144). -/
def effectOf (k : Config) (channel : Channel) (toggle : Bool) : Instr → Effect
  | .init pin ch => .configure pin ch
  | .setPower sel level => .transmit (setPowerFrame k channel toggle sel level)
  | .inc sel => .transmit (incFrame k channel toggle sel)
  | .dec sel => .transmit (decFrame k channel toggle sel)
  | .combo a b => .transmit (comboFrame k channel a b)
  | .setRed level => .transmit (setPowerFrame k channel toggle k.redSel level)
  | .setBlue level => .transmit (setPowerFrame k channel toggle k.blueSel level)

/-- The registers and the trace after `INIT` (R101). -/
def commandInit (pin : PinId) (channel : Channel) : Regs × List Action :=
  (⟨channel, false, pin, true, true, .low⟩, initTrace pin)

/-- The registers and the trace after a transmit command: the trace "is the trace of `send` and nothing else", and the
flip is the last thing (R110, R131). The line ends low (R168). -/
def commandSend (k : Config) (r : Regs) (f : Frame) : Host.Outcome (Regs × List Action) Fault Refusal :=
  if r.cfgValid then
    .next ({ r with toggle := r.toggle ^^ f.toggles, out := .low }, sendTrace k r.pin r.channel f.message)
  else .fault .useBeforeInit

/-- A command at the command level. -/
def command (k : Config) (i : Instr) (r : Regs) : Host.Outcome (Regs × List Action) Fault Refusal :=
  match effectOf k r.channel r.toggle i with
  | .configure pin channel => .next (commandInit pin channel)
  | .transmit f => commandSend k r f

/-- A sequence of commands, one after another, with the traces in order (R60, R61). -/
def commands (k : Config) : List Instr → Regs → Host.Outcome (Regs × List Action) Fault Refusal
  | [], r => .next (r, [])
  | i :: rest, r =>
    match command k i r with
    | .next (r', t) =>
      match commands k rest r' with
      | .next (r'', t') => .next (r'', t ++ t')
      | .fault e => .fault e
      | .refused e => .refused e
    | .fault e => .fault e
    | .refused e => .refused e

end Sys2Proof.Machine
end

