-- ==== Sys2Proof/Safety.lean ====
section
/-! DEFINITION. What counts as a good state and a quiet run, in the terms the statements use: the invariants of
spec/10_state.md R33, a host that does not assert `rst`, the line as observed tick by tick, the reserved words of
spec/30_encoding.md R88 by its own list, and what the acceptance of a transmit command leaves. -/

namespace Sys2Proof

/-- The commands that transmit a message: all but INIT (the table's `transmits`). -/
def Instr.transmits : Instr → Bool
  | .init _ _ => false
  | .setPower _ _ => true
  | .inc _ => true
  | .dec _ => true
  | .combo _ _ => true
  | .setRed _ => true
  | .setBlue _ => true

/-- The single output commands, which flip the toggle "exactly once" (R22, R110). -/
def Instr.flips : Instr → Bool
  | .init _ _ => false
  | .setPower _ _ => true
  | .inc _ => true
  | .dec _ => true
  | .combo _ _ => false
  | .setRed _ => true
  | .setBlue _ => true

end Sys2Proof

namespace Sys2Proof.Machine

/-- The line is low by the phase: gaps and pauses (R33 I3). -/
def Pos.isPause : Pos → Bool
  | .gap _ => true
  | .startPause _ => true
  | .dataPause _ _ => true
  | .stopPause _ => true
  | .idle => false
  | .startBurst _ _ => false
  | .dataBurst _ _ _ => false
  | .stopBurst _ _ => false

/-- The half-cycle index of a burst position (R33 I4). -/
def Pos.burstHalf : Pos → Option (Fin 12)
  | .startBurst _ h => some h
  | .dataBurst _ _ h => some h
  | .stopBurst _ h => some h
  | .idle => none
  | .gap _ => none
  | .startPause _ => none
  | .dataPause _ _ => none
  | .stopPause _ => none

/-- The XOR of the four nibbles of a message, 0xF for every message the block sends (R141). -/
def nibbleXor (m : Message) : Nibble :=
  m.extractLsb' 12 4 ^^^ m.extractLsb' 8 4 ^^^ m.extractLsb' 4 4 ^^^ m.extractLsb' 0 4

/-- The invariants of a single state: I1 to I4 of R33; that `oe` and `cfg_valid` are set and cleared together (DEDUCED from
R26, R27 and R101, log 9); and that a message in flight carries a correct checksum (R91, R141). -/
structure State.Inv (s : State) : Prop where
  idle_quiet : s.pos = .idle → s.timer = 0 ∧ s.out = .low
  busy_live : s.pos ≠ .idle → s.cfgValid = true ∧ s.oe = true ∧ 1 ≤ s.timer
  pause_low : s.pos.isPause = true → s.out = .low
  burst_level : ∀ h, s.pos.burstHalf = some h → s.out = halfLevel h
  oe_configured : s.oe = s.cfgValid
  msg_checked : s.pos ≠ .idle → nibbleXor s.msg = 0xF

/-- The host does not assert `rst` in the next `n` steps; what it does with the command port is left open. -/
def State.NoReset (s : State) (n : Nat) : Prop :=
  ∀ inp ∈ s.host.take n, inp.rst = false

/-- `n` steps, up to the first fault or refusal: `Host.Core.run` of this machine (`runFor_eq_core`, Laws/Step.lean). -/
def runFor : Nat → State → Host.Outcome State Fault Refusal
  | 0, s => .next s
  | n + 1, s =>
    match step s with
    | .next t => runFor n t
    | .fault e => .fault e
    | .refused e => .refused e

/-- The line level in `n` consecutive states, the given one first; shorter when a step stops. -/
def State.observe : Nat → State → List Level
  | 0, _ => []
  | n + 1, s =>
    s.irOut :: match step s with
      | .next t => State.observe n t
      | .fault _ => []
      | .refused _ => []

/-- The reserved command words as R88 lists them: by opcode, and by the bits each format holds at zero. -/
def IsReserved (w : CmdWord) : Prop :=
  let op : Nibble := w.extractLsb' 12 4
  op = 0x0 ∨ 0x6 ≤ op ∨ (op = 0x1 ∧ w.extractLsb' 10 2 ≠ 0#2) ∨
  ((op = 0x2 ∨ op = 0x5) ∧ w.extractLsb' 8 4 ≠ 0#4) ∨
  ((op = 0x3 ∨ op = 0x4) ∧ (w.extractLsb' 8 4 ≠ 0#4 ∨ w.extractLsb' 0 4 ≠ 0#4))

/-- The step accepts this word: `rst` is 0, the block is idle and `cmd_valid` is 1 (R181 case 3). -/
def State.Accepts (s : State) (w : CmdWord) : Prop :=
  s.portInput.rst = false ∧ s.pos = .idle ∧ s.portInput.cmdValid = true ∧ s.portInput.cmdWord = w

/-- `t` is `s` after it accepted a transmission of the given nibbles (R182): the message is the four nibbles one after
another, the first segment is on the line, and nothing but `msg`, `tog_pending`, `pos`, `timer` and `out` is written. -/
structure Sends (s t : State) (n1 n2 n3 : Nibble) (flip : Bool) : Prop where
  message : t.msg = n1 ++ n2 ++ n3 ++ (0xF#4 ^^^ n1 ^^^ n2 ^^^ n3)
  pending : t.togPending = flip
  first_gap : s.channel ≠ 3 → t.pos = .gap 0 ∧ t.out = .low ∧ t.timer.toNat = 77 * (3 - s.channel.toNat)
  no_gap : s.channel = 3 → t.pos = .startBurst 0 0 ∧ t.out = .high ∧ t.timer = BitVec.ofNat 16 (tHalf s.k)
  frame : t = { s with msg := t.msg, togPending := t.togPending, pos := t.pos, timer := t.timer, out := t.out }

/-- The positions reached from `p` by `next`, at most `n` of them (R179). -/
def walk : Nat → Pos → List Pos
  | 0, _ => []
  | n + 1, p => p :: match p.next with
    | some q => walk n q
    | none => []

/-- The half-cycle indices of a burst, in order. -/
def halves : List (Fin 12) :=
  [0, 1, 2, 3, 4, 5, 6, 7, 8, 9, 10, 11]

/-- The positions of one transmission as the loop of `send` orders them (R160). -/
def sendOrder (channel : Channel) : List Pos :=
  repetitions.flatMap fun r =>
    (if gapUs r channel = 0 then [] else [.gap r]) ++
    halves.map (.startBurst r) ++ [.startPause r] ++
    bitOrder.flatMap (fun b => halves.map (.dataBurst r b) ++ [.dataPause r b]) ++
    halves.map (.stopBurst r) ++ [.stopPause r]

/-- What a host drives that offers each command of a list in the first step in which `cmd_ready` is 1 (R251), as long as
the list goes through at the command level: the command's word, and for a transmit command a wait of its `T` ticks. -/
def script (k : Config) : List Instr → Regs → List PortInput
  | [], _ => []
  | i :: rest, r =>
    match encode i, command k i r with
    | some w, .next (r', _) =>
      .offer w ::
        (match effectOf k r.channel r.toggle i with
          | .configure _ _ => []
          | .transmit f => List.replicate (sendTicks k r.channel f.message) .wait) ++ script k rest r'
    | some w, .fault _ => [.offer w]
    | some w, .refused _ => [.offer w]
    | none, _ => []

/-- The ticks a waveform lasts. -/
def totalTicks (w : List Segment) : Nat :=
  (w.map (·.ticks)).sum

/-- The ticks for which the line is high. -/
def highTicks (w : List Segment) : Nat :=
  totalTicks (w.filter fun g => g.level = .high)

/-- The bits of a nibble, high bit first (R58). -/
def nibbleBits (n : Nibble) : List Bool :=
  [n.getLsbD 3, n.getLsbD 2, n.getLsbD 1, n.getLsbD 0]

end Sys2Proof.Machine
end

