-- ==== Sys2Proof/Certificates/Slice0/Obligations.lean ====
section
/-! DEFINITION. The statements about the model, from the numbered rules of spec/. -/

open Sys2Proof Sys2Proof.Machine

/-! ## The command word -/

/-- R85 to R87, R90: every command with a word of its own has one, and the decoder reads it back with every operand. -/
def Obligations.EncodeThenDecode : Prop :=
  ∀ i : Instr, i.wf = true → ∃ w, encode i = some w ∧ decode w = .ok i

/-- R85 to R87: a decoded command encodes to the word it was read from, so no bit of a word is ignored. -/
def Obligations.DecodeThenEncode : Prop :=
  ∀ (w : CmdWord) (i : Instr), decode w = .ok i → encode i = some w

/-- R88: the decoder rejects exactly the words of R88's list, and a step that is offered one refuses it: it has "no
meaning, not even 'no operation'". -/
def Obligations.ReservedWordsAreRefused : Prop :=
  (∀ w : CmdWord, (∃ e, decode w = .error e) ↔ IsReserved w) ∧
  ∀ (s : State) (w : CmdWord), s.k.wf = true → s.Accepts w → IsReserved w → step s = .refused .reservedCommand

/-- R86: "the rows are disjoint". -/
def Obligations.TableRowsAreDisjoint : Prop :=
  rows.Pairwise fun r r' => ∀ w : CmdWord, r.covers w = true → r'.covers w = false

/-- Words of the spec's own examples (R101, R111, R114, R115, R131; 95_test_vectors.md V2 to V6) decode to the commands
they stand for. -/
def Obligations.SampleWordsDecode : Prop :=
  decode 0x1005 = .ok (.init 5 0) ∧ decode 0x110D = .ok (.init 13 1) ∧ decode 0x13FF = .ok (.init 255 3) ∧
  decode 0x2007 = .ok (.setPower 0 7) ∧ decode 0x2018 = .ok (.setPower 1 8) ∧ decode 0x20F7 = .ok (.setPower 15 7) ∧
  decode 0x3010 = .ok (.inc 1) ∧ decode 0x30F0 = .ok (.inc 15) ∧
  decode 0x4010 = .ok (.dec 1) ∧ decode 0x4020 = .ok (.dec 2) ∧ decode 0x5035 = .ok (.combo 3 5)

/-! ## Configuration and reset -/

/-- R10: the check is W1 to W6, written as numbers (with R9's bound on `HALF_OVERHEAD`, log 8, the model's reading). -/
def Obligations.WellFormedIsW1ToW6 : Prop :=
  ∀ k : Config, k.wf = true ↔
    (k.toggleMask = 0x4 ∨ k.toggleMask = 0x8) ∧
    (k.escapeMarker = 0x4 ∨ k.escapeMarker = 0x8) ∧ k.escapeMarker ≠ k.toggleMask ∧
    k.singleOutputMode ≠ k.singleExtendedMode ∧
    k.singleOutputMode ||| k.redSel ≠ k.singleOutputMode ||| k.blueSel ∧
    k.singleExtendedMode ||| k.redSel ≠ k.singleExtendedMode ||| k.blueSel ∧
    (1 ≤ k.halfPeriod ∧ 1 ≤ k.lowPause ∧ k.lowPause < k.highPause ∧ 1 ≤ k.startStopPause ∧ 1 ≤ k.halfOverhead) ∧
    (k.halfPeriod < 65536 ∧ k.highPause < 65536 ∧ k.startStopPause < 65536 ∧ k.halfOverhead < 65536)

/-- From R206: nothing runs under a configuration that is not well formed. Two parts of it are the model's: that every
step is refused, a reset step too, where R206 and R202 say before the first step (DESIGN CHOICE, log 10); and that the
check `wf` which fails also holds the bound of at least 1 on `HALF_OVERHEAD`, which R10 lacks (log 8). -/
def Obligations.BadConfigRunsNothing : Prop :=
  ∀ s : State, s.k.wf = false → step s = .refused .badConfig

/-- R7, R8, R31: no step writes the configuration. -/
def Obligations.ConfigurationIsNeverWritten : Prop :=
  ∀ s t : State, step s = .next t → t.k = s.k

/-- R34: what the spec states of the state after reset. What `channel`, `toggle`, `pin`, `msg` and `tog_pending` hold is
not stated. -/
def Obligations.ResetState : Prop :=
  State.reset.cfgValid = false ∧ State.reset.oe = false ∧ State.reset.out = .low ∧ State.reset.pos = .idle ∧
  State.reset.timer = 0 ∧ State.reset.cmdReady = true ∧ State.reset.line = none

/-- R230, R187: a step with `rst` = 1 gives the reset state from every state, in mid-transmission too, whatever is
offered; the configuration stays. The premise that it is well formed is there because the model refuses a reset step too
under one that is not (log 10). -/
def Obligations.ResetStepWins : Prop :=
  ∀ s : State, s.k.wf = true → s.portInput.rst = true →
    ∃ t, step s = .next t ∧ t.cfgValid = false ∧ t.oe = false ∧ t.out = .low ∧ t.pos = .idle ∧ t.timer = 0 ∧
      t.k = s.k ∧ t.host = s.host.tail

/-! ## The step -/

/-- R181, R182: the word on the port of an idle block decodes to a command, and the step is `exec` of it; the step adds
only that this step's inputs are used up. -/
def Obligations.StepRunsTheDecodedCommand : Prop :=
  ∀ (s : State) (w : CmdWord) (i : Instr), s.k.wf = true → s.Accepts w → decode w = .ok i →
    step s = exec i { s with host := s.host.tail }

/-- R181 case 4, R219: a step of an idle block that is offered nothing changes no register. -/
def Obligations.IdleStepChangesNothing : Prop :=
  ∀ s : State, s.k.wf = true → s.portInput.rst = false → s.pos = .idle → s.portInput.cmdValid = false →
    step s = .next { s with host := s.host.tail }

/-- R207, R183, R63: a busy step does not look at the command port: two hosts that differ only in what they offer in it get
the same next state. -/
def Obligations.BusyStepIgnoresThePort : Prop :=
  ∀ (s : State) (a b : PortInput) (rest : List PortInput), s.k.wf = true → s.pos ≠ .idle → a.rst = false →
    b.rst = false →
    ∃ t, step { s with host := a :: rest } = .next t ∧ step { s with host := b :: rest } = .next t ∧ t.host = rest

/-- R212, R202: a step faults only by accepting a transmit command before INIT, and refuses only a reserved word it would
accept, or a bad configuration. So under a well-formed configuration no busy step, idle step or reset step stops. That a
bad configuration is refused in every step is the model's choice (log 10), as is its bound on `HALF_OVERHEAD` (log 8). -/
def Obligations.OnlyAcceptanceStops : Prop :=
  (∀ (s : State) (e : Fault), step s = .fault e →
    e = .useBeforeInit ∧ s.cfgValid = false ∧
      ∃ w i, s.Accepts w ∧ ¬ IsReserved w ∧ decode w = .ok i ∧ i.transmits = true) ∧
  (∀ (s : State) (r : Refusal), step s = .refused r →
    (r = .badConfig ∧ s.k.wf = false) ∨ (r = .reservedCommand ∧ ∃ w, s.Accepts w ∧ IsReserved w))

/-! ## INIT -/

/-- R101, R104: INIT's registers and its trace, from every state; `msg`, `tog_pending`, `pos` and `timer` are untouched. -/
def Obligations.InitCompletes : Prop :=
  ∀ (p : PinId) (c : Channel) (s : State),
    exec (.init p c) s = .next { s with pin := p, channel := c, toggle := false, cfgValid := true, oe := true,
                                        out := .low } ∧
    initTrace p = [.pinMode p, .pinWrite p .low]

/-- R102: "After any INIT the next single output message carries toggle 0", on the channel INIT set. -/
def Obligations.MessageAfterInitCarriesToggleZero : Prop :=
  ∀ (p : PinId) (c : Channel) (s t : State) (i : Instr), exec (.init p c) s = .next t → i.flips = true →
    ∃ u, exec i t = .next u ∧ u.msg.extractLsb' 12 4 = c.setWidth 4

/-! ## The transmit commands -/

/-- R203: a transmit command accepted while `cfg_valid` is 0 faults. -/
def Obligations.TransmitBeforeInitFaults : Prop :=
  ∀ (i : Instr) (s : State), i.transmits = true → s.cfgValid = false → exec i s = .fault .useBeforeInit

/-- R73, with R71, R76 and R182: SETPOWER in an initialised block. -/
def Obligations.SetPowerCompletes : Prop :=
  ∀ (sel level : Nibble) (s : State), s.cfgValid = true →
    ∃ t, exec (.setPower sel level) s = .next t ∧
      Sends s t ((if s.toggle then s.k.toggleMask else 0#4) ||| s.channel.setWidth 4) (s.k.singleOutputMode ||| sel)
        level true

/-- R114, with R71, R74 and R182: INC in an initialised block. -/
def Obligations.IncCompletes : Prop :=
  ∀ (sel : Nibble) (s : State), s.cfgValid = true →
    ∃ t, exec (.inc sel) s = .next t ∧
      Sends s t ((if s.toggle then s.k.toggleMask else 0#4) ||| s.channel.setWidth 4) (s.k.singleExtendedMode ||| sel)
        0x4 true

/-- R115, with R71, R74 and R182: DEC in an initialised block. -/
def Obligations.DecCompletes : Prop :=
  ∀ (sel : Nibble) (s : State), s.cfgValid = true →
    ∃ t, exec (.dec sel) s = .next t ∧
      Sends s t ((if s.toggle then s.k.toggleMask else 0#4) ||| s.channel.setWidth 4) (s.k.singleExtendedMode ||| sel)
        0x5 true

/-- R72, R75, with R131 and R182: COMBO in an initialised block; "the toggle does not enter it". -/
def Obligations.ComboCompletes : Prop :=
  ∀ (a b : Nibble) (s : State), s.cfgValid = true →
    ∃ t, exec (.combo a b) s = .next t ∧ Sends s t (s.k.escapeMarker ||| s.channel.setWidth 4) a b false

/-- R112, R113, R90: the aliases in an initialised block; each does what its expansion does, and has no word. -/
def Obligations.AliasesComplete : Prop :=
  (∀ (level : Nibble) (s : State), s.cfgValid = true →
    ∃ t, exec (.setRed level) s = .next t ∧ exec (.setPower s.k.redSel level) s = .next t ∧
      Sends s t ((if s.toggle then s.k.toggleMask else 0#4) ||| s.channel.setWidth 4)
        (s.k.singleOutputMode ||| s.k.redSel) level true) ∧
  (∀ (level : Nibble) (s : State), s.cfgValid = true →
    ∃ t, exec (.setBlue level) s = .next t ∧ exec (.setPower s.k.blueSel level) s = .next t ∧
      Sends s t ((if s.toggle then s.k.toggleMask else 0#4) ||| s.channel.setWidth 4)
        (s.k.singleOutputMode ||| s.k.blueSel) level true) ∧
  ∀ level : Nibble, encode (.setRed level) = none ∧ encode (.setBlue level) = none

/-- R110, R131, R182: the frame of acceptance. No transmit command writes `channel`, `toggle`, `pin`, `cfg_valid` or `oe`
when it is accepted. -/
def Obligations.TransmitFrame : Prop :=
  ∀ (i : Instr) (s t : State), i.transmits = true → exec i s = .next t →
    t.channel = s.channel ∧ t.toggle = s.toggle ∧ t.pin = s.pin ∧ t.cfgValid = s.cfgValid ∧ t.oe = s.oe ∧ t.k = s.k ∧
      t.host = s.host ∧ t.draw = s.draw

/-- R143, R146: the message depends on the operands, `channel`, `toggle` and `K` alone, and on no earlier message. -/
def Obligations.MessageIsFresh : Prop :=
  ∀ (i : Instr) (s s' t t' : State), i.transmits = true → s.k = s'.k → s.channel = s'.channel → s.toggle = s'.toggle →
    exec i s = .next t → exec i s' = .next t' → t.msg = t'.msg ∧ t.togPending = t'.togPending

/-- R117: the same single output command with the toggle flipped sends a message that differs in the toggle bit of nib1
and in the same bit of the checksum, and so is another message. -/
def Obligations.RepeatedCommandsDifferInToggleBits : Prop :=
  ∀ (i : Instr) (s t t' : State), s.k.wf = true → i.flips = true → exec i s = .next t →
    exec i { s with toggle := !s.toggle } = .next t' →
    t.msg ^^^ t'.msg = (s.k.toggleMask.setWidth 16 <<< 12) ||| s.k.toggleMask.setWidth 16 ∧ t.msg ≠ t'.msg

/-! ## The framer -/

/-- R23, R147: a stored value that is `m = T ? K.TOGGLE_MASK : 0`, flipped by XOR with the mask, is the same toggle. -/
def Obligations.StoredMaskIsTheToggle : Prop :=
  ∀ (k : Config) (toggle : Bool),
    toggleBits k false = 0x0 ∧ toggleBits k true = k.toggleMask ∧
    toggleBits k (!toggle) = toggleBits k toggle ^^^ k.toggleMask

/-- R142: the assembly is the concatenation of the four nibbles, and each is read back. -/
def Obligations.AssembleIsConcatenation : Prop :=
  ∀ n1 n2 n3 : Nibble,
    assemble n1 n2 n3 = n1 ++ n2 ++ n3 ++ checksum n1 n2 n3 ∧
    (assemble n1 n2 n3).extractLsb' 12 4 = n1 ∧ (assemble n1 n2 n3).extractLsb' 8 4 = n2 ∧
    (assemble n1 n2 n3).extractLsb' 4 4 = n3 ∧ (assemble n1 n2 n3).extractLsb' 0 4 = 0xF#4 ^^^ n1 ^^^ n2 ^^^ n3

/-- R141: the four nibbles XOR to 0xF; one flipped bit of one nibble flips that bit of the checksum and no other; the
order of the nibbles does not matter. -/
def Obligations.ChecksumLaws : Prop :=
  ∀ n1 n2 n3 : Nibble,
    nibbleXor (assemble n1 n2 n3) = 0xF ∧
    (∀ i : Fin 4,
      checksum (n1 ^^^ BitVec.twoPow 4 i.val) n2 n3 = checksum n1 n2 n3 ^^^ BitVec.twoPow 4 i.val ∧
      checksum n1 (n2 ^^^ BitVec.twoPow 4 i.val) n3 = checksum n1 n2 n3 ^^^ BitVec.twoPow 4 i.val ∧
      checksum n1 n2 (n3 ^^^ BitVec.twoPow 4 i.val) = checksum n1 n2 n3 ^^^ BitVec.twoPow 4 i.val) ∧
    checksum n1 n2 n3 = checksum n2 n1 n3 ∧ checksum n1 n2 n3 = checksum n1 n3 n2

/-- R58 (a), (b): sent most significant bit first, a message is nib1, nib2, nib3 and the checksum, each high bit first. -/
def Obligations.BitsGoOutInNibbleOrder : Prop :=
  ∀ n1 n2 n3 : Nibble,
    bitOrder.map (fun i => (assemble n1 n2 n3).getLsbD i.val) =
      nibbleBits n1 ++ nibbleBits n2 ++ nibbleBits n3 ++ nibbleBits (checksum n1 n2 n3)

/-! ## The sequencer -/

/-- R163: the whole gap schedule in units and in microseconds, row by row, and its sums. -/
def Obligations.GapSchedule : Prop :=
  repetitions.map (gapUnits · 0) = [3, 5, 5, 8, 8] ∧ repetitions.map (gapUnits · 1) = [2, 5, 5, 10, 10] ∧
  repetitions.map (gapUnits · 2) = [1, 5, 5, 12, 12] ∧ repetitions.map (gapUnits · 3) = [0, 5, 5, 14, 14] ∧
  (∀ c : Channel, (repetitions.map (gapUnits · c)).sum = 29 + 3 * c.toNat) ∧
  repetitions.map (gapUs · 0) = [231, 385, 385, 616, 616] ∧ repetitions.map (gapUs · 1) = [154, 385, 385, 770, 770] ∧
  repetitions.map (gapUs · 2) = [77, 385, 385, 924, 924] ∧ repetitions.map (gapUs · 3) = [0, 385, 385, 1078, 1078] ∧
  (∀ c : Channel, (repetitions.map (gapUs · c)).sum = 77 * (29 + 3 * c.toNat)) ∧
  ∀ (r : Fin 5) (c : Channel), gapUs r c ≤ 1078

/-- R160, R179, R180: from its first position the sequencer goes through exactly the positions of the loop of `send`, in
its order, and then ends. -/
def Obligations.SequencerFollowsSendOrder : Prop :=
  ∀ c : Channel, walk 1200 (firstPos c) = sendOrder c

/-- R10 W6, R178: under a well-formed configuration every segment but the skipped gap lasts at least one tick and fits the
timer, so that the timer is loaded with its exact duration. -/
def Obligations.SegmentsFitTheTimer : Prop :=
  ∀ (s : State) (p : Pos), s.k.wf = true → p ≠ .idle → (p ≠ .gap 0 ∨ s.channel ≠ 3) →
    1 ≤ (seg s.k s.channel s.msg p).ticks ∧ (s.enter p).timer.toNat = (seg s.k s.channel s.msg p).ticks

/-- R183: while the timer is above 1 a busy step only counts it down. -/
def Obligations.BusyStepCountsDown : Prop :=
  ∀ s : State, s.k.wf = true → s.portInput.rst = false → s.pos ≠ .idle → 1 < s.timer.toNat →
    ∃ t, step s = .next t ∧ t = { s with timer := t.timer, host := s.host.tail } ∧ t.timer.toNat = s.timer.toNat - 1

/-- R183: in the last tick of a segment the block enters the successor and puts its segment on the line; no other
register is written. -/
def Obligations.LastTickEntersTheSuccessor : Prop :=
  ∀ (s : State) (p : Pos), s.k.wf = true → s.portInput.rst = false → s.pos.next = some p → s.timer = 1 →
    step s = .next { s with pos := p, out := (seg s.k s.channel s.msg p).level,
                            timer := BitVec.ofNat 16 (seg s.k s.channel s.msg p).ticks, host := s.host.tail }

/-- R184: the end of a transmission. What `msg` and `tog_pending` hold afterwards is not stated (R28). -/
def Obligations.EndOfTransmission : Prop :=
  ∀ s : State, s.k.wf = true → s.portInput.rst = false → s.pos = .stopPause 4 → s.timer = 1 →
    ∃ t, step s = .next t ∧ t.pos = .idle ∧ t.timer = 0 ∧ t.out = s.out ∧
      t.toggle = (if s.togPending then !s.toggle else s.toggle) ∧ t.cmdReady = true ∧
      t.channel = s.channel ∧ t.pin = s.pin ∧ t.cfgValid = s.cfgValid ∧ t.oe = s.oe ∧ t.k = s.k ∧ t.host = s.host.tail

/-- R183: "A segment of duration `d` is therefore on `ir_out` in exactly `d` consecutive states", and the successor's
segment follows. -/
def Obligations.SegmentLastsExactlyItsTicks : Prop :=
  ∀ (s : State) (p q : Pos), s.k.wf = true → s.pos = p → p.next = some q → 1 ≤ s.timer.toNat →
    s.NoReset s.timer.toNat →
    (∀ n < s.timer.toNat, ∃ t, runFor n s = .next t ∧ t.pos = p ∧ t.out = s.out) ∧
    ∃ t, runFor s.timer.toNat s = .next t ∧ t.pos = q ∧ t.out = (seg s.k s.channel s.msg q).level

/-! ## Invariants -/

/-- R33 I1 to I4, R91: every step from a state that has the invariants gives one that has them. -/
def Obligations.StepKeepsInvariants : Prop :=
  ∀ s t : State, s.Inv → step s = .next t → t.Inv

/-- R33, R34: the invariants hold after reset. -/
def Obligations.ResetHasInvariants : Prop :=
  State.reset.Inv

/-- R55, R33 I1: the line of an idle block that has been initialised is driven low. -/
def Obligations.IdleLineIsLow : Prop :=
  ∀ s : State, s.Inv → s.pos = .idle → s.cfgValid = true → s.line = some .low

/-- R33 I5: `channel` and `pin` change only in the step that accepts an INIT, to its operands (or in a reset step, which
R34 leaves without a value). -/
def Obligations.ChannelAndPinChangeOnlyByInit : Prop :=
  ∀ s t : State, step s = .next t → (t.channel ≠ s.channel ∨ t.pin ≠ s.pin) → s.portInput.rst = false →
    ∃ w p c, s.Accepts w ∧ decode w = .ok (.init p c) ∧ t.channel = c ∧ t.pin = p

/-- R33 I6: `toggle` changes only in the step that accepts an INIT, to 0, and in the step that ends a transmission with
`tog_pending` = 1, by the flip (or in a reset step). -/
def Obligations.ToggleChangesOnlyByInitOrEnd : Prop :=
  ∀ s t : State, step s = .next t → t.toggle ≠ s.toggle → s.portInput.rst = false →
    (t.toggle = false ∧ ∃ w p c, s.Accepts w ∧ decode w = .ok (.init p c)) ∨
    (s.pos ≠ .idle ∧ t.pos = .idle ∧ s.togPending = true ∧ t.toggle = !s.toggle)

/-- R33 I7, R161: `msg` and `tog_pending` do not change while the block is busy, so all five repetitions send the same
message. -/
def Obligations.MessageIsStableWhileBusy : Prop :=
  ∀ s t : State, step s = .next t → s.pos ≠ .idle → t.pos ≠ .idle → t.msg = s.msg ∧ t.togPending = s.togPending

/-- R26, R35: `cfg_valid` is "never cleared except by reset", and `oe` likewise. -/
def Obligations.InitialisationLastsUntilReset : Prop :=
  ∀ s t : State, step s = .next t → s.portInput.rst = false →
    (s.cfgValid = true → t.cfgValid = true) ∧ (s.oe = true → t.oe = true)

/-! ## Traces and waveforms -/

/-- R164, R14: no trace holds a `Delay(0)`. -/
def Obligations.NoZeroDelay : Prop :=
  ∀ (k : Config) (p : PinId) (c : Channel) (m : Message) (d : Nat), k.wf = true →
    .delay d ∈ sendTrace k p c m → 1 ≤ d

/-- R170: the number of actions and of pin writes of one `send`, its first action and its last. -/
def Obligations.SendTraceShape : Prop :=
  ∀ (k : Config) (p : PinId) (c : Channel) (m : Message),
    (sendTrace k p c m).length = (if k.halfPeriodEn then 2255 else 1175) - (if c = 3 then 1 else 0) ∧
    pinWrites (sendTrace k p c m) = 1080 ∧
    (sendTrace k p c m).head? = some (if c = 3 then .pinWrite p .high else .delay (gapUs 0 c)) ∧
    (sendTrace k p c m).getLast? = some (.delay k.startStopPause)

/-- R174: merging adjacent segments of equal level does not change the line, and leaves no two such segments. -/
def Obligations.MergingKeepsTheLine : Prop :=
  ∀ w : List Segment, samples (merged w) = samples w ∧ (merged w).IsChain (fun g h => g.level ≠ h.level)

/-- R176, R250: a whole `send` lasts `T` ticks. -/
def Obligations.SendLastsT : Prop :=
  ∀ (k : Config) (p : PinId) (c : Channel) (m : Message),
    totalTicks (waveform .low (sendTrace (heldConfig k) p c m)) = sendTicks k c m

/-- R177: the line is high for 5 * 108 * `t_half` ticks of a `send`, whatever the message. -/
def Obligations.HighTimeIsConstant : Prop :=
  ∀ (k : Config) (p : PinId) (c : Channel) (m : Message),
    highTicks (waveform .low (sendTrace (heldConfig k) p c m)) = 5 * 108 * tHalf k

/-! ## The two levels -/

/-- R116: after INIT and any mix of `N` single output commands and any number of COMBO commands, none of which can stop,
the toggle is `N mod 2`. -/
def Obligations.ToggleParity : Prop :=
  ∀ (k : Config) (p : PinId) (c : Channel) (is : List Instr) (r : Regs), (∀ i ∈ is, i.transmits = true) →
    ∃ r' tr, commands k (.init p c :: is) r = .next (r', tr) ∧
      r'.toggle = decide ((is.countP (·.flips)) % 2 = 1) ∧ r'.channel = c ∧ r'.pin = p

/-- R185: an accepted transmit command keeps the block busy for `T` states, and the next one is ready, with the toggle
flipped for a single output command and with `channel` and `pin` as they were. -/
def Obligations.TransmissionTakesT : Prop :=
  ∀ (i : Instr) (s t : State), s.k.wf = true → i.transmits = true → exec i s = .next t →
    t.NoReset (sendTicks t.k t.channel t.msg) →
    (∀ n < sendTicks t.k t.channel t.msg, ∃ u, runFor n t = .next u ∧ u.busy = true) ∧
    ∃ u, runFor (sendTicks t.k t.channel t.msg) t = .next u ∧ u.cmdReady = true ∧ u.out = .low ∧
      u.toggle = (if i.flips then !s.toggle else s.toggle) ∧ u.channel = s.channel ∧ u.pin = s.pin ∧
      u.cfgValid = true ∧ u.host = s.host.drop (sendTicks t.k t.channel t.msg)

/-- R186: the tick level plays the command level. From the acceptance of a transmit command the line carries, tick by
tick, the waveform of the command's action trace (with every half-cycle held for `t_half`, which is the trace itself when
`HALF_PERIOD_EN` is true), and the registers afterwards are those of the command rule. -/
def Obligations.TransmissionPlaysItsTrace : Prop :=
  ∀ (i : Instr) (s t : State), s.k.wf = true → i.transmits = true → exec i s = .next t →
    t.NoReset (sendTicks t.k t.channel t.msg) →
    ∃ r tr u, command s.k i s.regs = .next (r, tr) ∧
      runFor (sendTicks t.k t.channel t.msg) t = .next u ∧ u.pos = .idle ∧ u.regs = r ∧
      State.observe (sendTicks t.k t.channel t.msg) t =
        samples (waveform .low (sendTrace (heldConfig s.k) s.pin s.channel t.msg)) ∧
      (s.k.halfPeriodEn = true → tr = sendTrace (heldConfig s.k) s.pin s.channel t.msg)

/-- R61, R246: commands are executed "one at a time in the order they are accepted", and the registers after a sequence of
them are the fold of the command rules: a host that offers each when the block is ready ends in an idle block with the
registers of the fold. -/
def Obligations.SequenceOfCommandsIsTheFold : Prop :=
  ∀ (is : List Instr) (s : State) (r : Regs) (tr : List Action), s.k.wf = true → s.pos = .idle →
    (∀ i ∈ is, i.wf = true) → commands s.k is s.regs = .next (r, tr) → s.host = script s.k is s.regs →
    ∃ u, runFor s.host.length s = .next u ∧ u.pos = .idle ∧ u.regs = r ∧ u.host = []

/-- R61, R203: a sequence whose fold faults is a run that faults: a host that offers each command when the block is ready
reaches the fault of the first transmit command before INIT. -/
def Obligations.SequenceFaultsAsTheFold : Prop :=
  ∀ (is : List Instr) (s : State) (e : Fault), s.k.wf = true → s.pos = .idle → (∀ i ∈ is, i.wf = true) →
    commands s.k is s.regs = .fault e → s.host = script s.k is s.regs →
    runFor s.host.length s = .fault e
end

