-- ==== Sys2Proof/Laws/Config.lean ====
section
/-! SUPPORT. What a well-formed configuration gives (spec/00_scope.md R10), so that no later proof unfolds the checks. -/

namespace Sys2Proof

/-- The six checks of R10, one by one. -/
theorem Config.wf_checks {k : Config} (h : k.wf = true) :
    k.maskWf = true ∧ k.escapeWf = true ∧ k.modesWf = true ∧ k.selectorsWf = true ∧ k.pausesWf = true ∧
      k.durationsWf = true := by
  simpa [Config.wf, and_assoc] using h

/-- W1: the toggle mask is bit 2 or bit 3 of nib1. -/
theorem Config.toggleMask_cases {k : Config} (h : k.wf = true) : k.toggleMask = 0x4 ∨ k.toggleMask = 0x8 := by
  have key : ∀ m : Nibble, (m.cpop == 1 && m &&& 0x3 == 0) = true → m = 0x4 ∨ m = 0x8 := by decide
  exact key _ (Config.wf_checks h).1

/-- W5 with R9: every delay constant is at least one tick, and the high pause is the longer one. -/
theorem Config.durations_pos {k : Config} (h : k.wf = true) :
    1 ≤ k.halfPeriod ∧ 1 ≤ k.lowPause ∧ k.lowPause < k.highPause ∧ 1 ≤ k.startStopPause ∧ 1 ≤ k.halfOverhead := by
  have := (Config.wf_checks h).2.2.2.2.1
  simpa [Config.pausesWf, and_assoc] using this

/-- W6: every delay constant fits the 16-bit timer. -/
theorem Config.durations_lt {k : Config} (h : k.wf = true) :
    k.halfPeriod < 65536 ∧ k.highPause < 65536 ∧ k.lowPause < 65536 ∧ k.startStopPause < 65536 ∧
      k.halfOverhead < 65536 := by
  have h6 := (Config.wf_checks h).2.2.2.2.2
  have h5 := Config.durations_pos h
  simp only [Config.durationsWf, decide_eq_true_eq] at h6
  omega

end Sys2Proof
end

