-- ==== Sys2Proof/Laws/PerInstr.lean ====
section
/-! SUPPORT. The family `Expansion`, one lemma per command: what goes to the command port in place of a command has a
command word of its own, and is not expanded again (spec/30_encoding.md R90). -/

namespace Sys2Proof.Laws

/-- What is said of every command, as syntax. -/
def Expansion.Statement (i : Instr) : Prop :=
  ∀ k : Config, (expand k i).wf = true ∧ (encode (expand k i)).isSome = true ∧ expand k (expand k i) = expand k i ∧
    (i.wf = true → expand k i = i)

theorem Expansion.init (p : PinId) (c : Channel) : Expansion.Statement (.init p c) :=
  fun _ => ⟨rfl, rfl, rfl, fun _ => rfl⟩

theorem Expansion.setPower (sel level : Nibble) : Expansion.Statement (.setPower sel level) :=
  fun _ => ⟨rfl, rfl, rfl, fun _ => rfl⟩

theorem Expansion.inc (sel : Nibble) : Expansion.Statement (.inc sel) :=
  fun _ => ⟨rfl, rfl, rfl, fun _ => rfl⟩

theorem Expansion.dec (sel : Nibble) : Expansion.Statement (.dec sel) :=
  fun _ => ⟨rfl, rfl, rfl, fun _ => rfl⟩

theorem Expansion.combo (a b : Nibble) : Expansion.Statement (.combo a b) :=
  fun _ => ⟨rfl, rfl, rfl, fun _ => rfl⟩

theorem Expansion.setRed (level : Nibble) : Expansion.Statement (.setRed level) :=
  fun _ => ⟨rfl, rfl, rfl, fun h => by cases h⟩

theorem Expansion.setBlue (level : Nibble) : Expansion.Statement (.setBlue level) :=
  fun _ => ⟨rfl, rfl, rfl, fun h => by cases h⟩

end Sys2Proof.Laws
end

