-- ==== Sys2Proof/Laws/State.lean ====
section
/-! SUPPORT. What each named update of the state does to each field: one lemma per field per update. -/

namespace Sys2Proof.Machine

/-! ### `State.clearToggle` -/

@[simp] theorem State.clearToggle_channel (s : State) : s.clearToggle.channel = s.channel := rfl
@[simp] theorem State.clearToggle_toggle (s : State) : s.clearToggle.toggle = false := rfl
@[simp] theorem State.clearToggle_pin (s : State) : s.clearToggle.pin = s.pin := rfl
@[simp] theorem State.clearToggle_cfgValid (s : State) : s.clearToggle.cfgValid = s.cfgValid := rfl
@[simp] theorem State.clearToggle_oe (s : State) : s.clearToggle.oe = s.oe := rfl
@[simp] theorem State.clearToggle_out (s : State) : s.clearToggle.out = s.out := rfl
@[simp] theorem State.clearToggle_msg (s : State) : s.clearToggle.msg = s.msg := rfl
@[simp] theorem State.clearToggle_togPending (s : State) : s.clearToggle.togPending = s.togPending := rfl
@[simp] theorem State.clearToggle_pos (s : State) : s.clearToggle.pos = s.pos := rfl
@[simp] theorem State.clearToggle_timer (s : State) : s.clearToggle.timer = s.timer := rfl
@[simp] theorem State.clearToggle_k (s : State) : s.clearToggle.k = s.k := rfl
@[simp] theorem State.clearToggle_host (s : State) : s.clearToggle.host = s.host := rfl
@[simp] theorem State.clearToggle_draw (s : State) : s.clearToggle.draw = s.draw := rfl

/-! ### `State.flipToggleIfPending` -/

@[simp] theorem State.flipToggleIfPending_channel (s : State) : s.flipToggleIfPending.channel = s.channel := rfl
@[simp] theorem State.flipToggleIfPending_toggle (s : State) : s.flipToggleIfPending.toggle = (s.toggle ^^ s.togPending) := rfl
@[simp] theorem State.flipToggleIfPending_pin (s : State) : s.flipToggleIfPending.pin = s.pin := rfl
@[simp] theorem State.flipToggleIfPending_cfgValid (s : State) : s.flipToggleIfPending.cfgValid = s.cfgValid := rfl
@[simp] theorem State.flipToggleIfPending_oe (s : State) : s.flipToggleIfPending.oe = s.oe := rfl
@[simp] theorem State.flipToggleIfPending_out (s : State) : s.flipToggleIfPending.out = s.out := rfl
@[simp] theorem State.flipToggleIfPending_msg (s : State) : s.flipToggleIfPending.msg = s.msg := rfl
@[simp] theorem State.flipToggleIfPending_togPending (s : State) : s.flipToggleIfPending.togPending = s.togPending := rfl
@[simp] theorem State.flipToggleIfPending_pos (s : State) : s.flipToggleIfPending.pos = s.pos := rfl
@[simp] theorem State.flipToggleIfPending_timer (s : State) : s.flipToggleIfPending.timer = s.timer := rfl
@[simp] theorem State.flipToggleIfPending_k (s : State) : s.flipToggleIfPending.k = s.k := rfl
@[simp] theorem State.flipToggleIfPending_host (s : State) : s.flipToggleIfPending.host = s.host := rfl
@[simp] theorem State.flipToggleIfPending_draw (s : State) : s.flipToggleIfPending.draw = s.draw := rfl

/-! ### `State.takeInput` -/

@[simp] theorem State.takeInput_channel (s : State) : s.takeInput.channel = s.channel := rfl
@[simp] theorem State.takeInput_toggle (s : State) : s.takeInput.toggle = s.toggle := rfl
@[simp] theorem State.takeInput_pin (s : State) : s.takeInput.pin = s.pin := rfl
@[simp] theorem State.takeInput_cfgValid (s : State) : s.takeInput.cfgValid = s.cfgValid := rfl
@[simp] theorem State.takeInput_oe (s : State) : s.takeInput.oe = s.oe := rfl
@[simp] theorem State.takeInput_out (s : State) : s.takeInput.out = s.out := rfl
@[simp] theorem State.takeInput_msg (s : State) : s.takeInput.msg = s.msg := rfl
@[simp] theorem State.takeInput_togPending (s : State) : s.takeInput.togPending = s.togPending := rfl
@[simp] theorem State.takeInput_pos (s : State) : s.takeInput.pos = s.pos := rfl
@[simp] theorem State.takeInput_timer (s : State) : s.takeInput.timer = s.timer := rfl
@[simp] theorem State.takeInput_k (s : State) : s.takeInput.k = s.k := rfl
@[simp] theorem State.takeInput_host (s : State) : s.takeInput.host = s.host.tail := rfl
@[simp] theorem State.takeInput_draw (s : State) : s.takeInput.draw = s.draw := rfl

/-! ### `State.configure` -/

@[simp] theorem State.configure_channel (s : State) (p : PinId) (c : Channel) : (s.configure p c).channel = c := rfl
@[simp] theorem State.configure_toggle (s : State) (p : PinId) (c : Channel) : (s.configure p c).toggle = false := rfl
@[simp] theorem State.configure_pin (s : State) (p : PinId) (c : Channel) : (s.configure p c).pin = p := rfl
@[simp] theorem State.configure_cfgValid (s : State) (p : PinId) (c : Channel) : (s.configure p c).cfgValid = true := rfl
@[simp] theorem State.configure_oe (s : State) (p : PinId) (c : Channel) : (s.configure p c).oe = s.oe := rfl
@[simp] theorem State.configure_out (s : State) (p : PinId) (c : Channel) : (s.configure p c).out = s.out := rfl
@[simp] theorem State.configure_msg (s : State) (p : PinId) (c : Channel) : (s.configure p c).msg = s.msg := rfl
@[simp] theorem State.configure_togPending (s : State) (p : PinId) (c : Channel) : (s.configure p c).togPending = s.togPending := rfl
@[simp] theorem State.configure_pos (s : State) (p : PinId) (c : Channel) : (s.configure p c).pos = s.pos := rfl
@[simp] theorem State.configure_timer (s : State) (p : PinId) (c : Channel) : (s.configure p c).timer = s.timer := rfl
@[simp] theorem State.configure_k (s : State) (p : PinId) (c : Channel) : (s.configure p c).k = s.k := rfl
@[simp] theorem State.configure_host (s : State) (p : PinId) (c : Channel) : (s.configure p c).host = s.host := rfl
@[simp] theorem State.configure_draw (s : State) (p : PinId) (c : Channel) : (s.configure p c).draw = s.draw := rfl

/-! ### `State.releaseMessage` -/

@[simp] theorem State.releaseMessage_channel (s : State) : s.releaseMessage.channel = s.channel := rfl
@[simp] theorem State.releaseMessage_toggle (s : State) : s.releaseMessage.toggle = s.toggle := rfl
@[simp] theorem State.releaseMessage_pin (s : State) : s.releaseMessage.pin = s.pin := rfl
@[simp] theorem State.releaseMessage_cfgValid (s : State) : s.releaseMessage.cfgValid = s.cfgValid := rfl
@[simp] theorem State.releaseMessage_oe (s : State) : s.releaseMessage.oe = s.oe := rfl
@[simp] theorem State.releaseMessage_out (s : State) : s.releaseMessage.out = s.out := rfl
@[simp] theorem State.releaseMessage_msg (s : State) : s.releaseMessage.msg = Config.freeMsg s.draw := rfl
@[simp] theorem State.releaseMessage_togPending (s : State) : s.releaseMessage.togPending = Config.freeTogPending s.draw := rfl
@[simp] theorem State.releaseMessage_pos (s : State) : s.releaseMessage.pos = s.pos := rfl
@[simp] theorem State.releaseMessage_timer (s : State) : s.releaseMessage.timer = s.timer := rfl
@[simp] theorem State.releaseMessage_k (s : State) : s.releaseMessage.k = s.k := rfl
@[simp] theorem State.releaseMessage_host (s : State) : s.releaseMessage.host = s.host := rfl
@[simp] theorem State.releaseMessage_draw (s : State) : s.releaseMessage.draw = s.draw + 1 := rfl

/-! ### `State.resetStep` -/

@[simp] theorem State.resetStep_channel (s : State) : s.resetStep.channel = Config.freeChannel s.draw := rfl
@[simp] theorem State.resetStep_toggle (s : State) : s.resetStep.toggle = Config.freeToggle s.draw := rfl
@[simp] theorem State.resetStep_pin (s : State) : s.resetStep.pin = Config.freePin s.draw := rfl
@[simp] theorem State.resetStep_cfgValid (s : State) : s.resetStep.cfgValid = false := rfl
@[simp] theorem State.resetStep_oe (s : State) : s.resetStep.oe = false := rfl
@[simp] theorem State.resetStep_out (s : State) : s.resetStep.out = .low := rfl
@[simp] theorem State.resetStep_msg (s : State) : s.resetStep.msg = Config.freeMsg s.draw := rfl
@[simp] theorem State.resetStep_togPending (s : State) : s.resetStep.togPending = Config.freeTogPending s.draw := rfl
@[simp] theorem State.resetStep_pos (s : State) : s.resetStep.pos = .idle := rfl
@[simp] theorem State.resetStep_timer (s : State) : s.resetStep.timer = 0 := rfl
@[simp] theorem State.resetStep_k (s : State) : s.resetStep.k = s.k := rfl
@[simp] theorem State.resetStep_host (s : State) : s.resetStep.host = s.host := rfl
@[simp] theorem State.resetStep_draw (s : State) : s.resetStep.draw = s.draw + 1 := rfl

/-! ### `State.act` of pinMode -/

@[simp] theorem State.act_pinMode_channel (s : State) (p : PinId) : (s.act (.pinMode p)).channel = s.channel := rfl
@[simp] theorem State.act_pinMode_toggle (s : State) (p : PinId) : (s.act (.pinMode p)).toggle = s.toggle := rfl
@[simp] theorem State.act_pinMode_pin (s : State) (p : PinId) : (s.act (.pinMode p)).pin = s.pin := rfl
@[simp] theorem State.act_pinMode_cfgValid (s : State) (p : PinId) : (s.act (.pinMode p)).cfgValid = s.cfgValid := rfl
@[simp] theorem State.act_pinMode_oe (s : State) (p : PinId) : (s.act (.pinMode p)).oe = true := rfl
@[simp] theorem State.act_pinMode_out (s : State) (p : PinId) : (s.act (.pinMode p)).out = s.out := rfl
@[simp] theorem State.act_pinMode_msg (s : State) (p : PinId) : (s.act (.pinMode p)).msg = s.msg := rfl
@[simp] theorem State.act_pinMode_togPending (s : State) (p : PinId) : (s.act (.pinMode p)).togPending = s.togPending := rfl
@[simp] theorem State.act_pinMode_pos (s : State) (p : PinId) : (s.act (.pinMode p)).pos = s.pos := rfl
@[simp] theorem State.act_pinMode_timer (s : State) (p : PinId) : (s.act (.pinMode p)).timer = s.timer := rfl
@[simp] theorem State.act_pinMode_k (s : State) (p : PinId) : (s.act (.pinMode p)).k = s.k := rfl
@[simp] theorem State.act_pinMode_host (s : State) (p : PinId) : (s.act (.pinMode p)).host = s.host := rfl
@[simp] theorem State.act_pinMode_draw (s : State) (p : PinId) : (s.act (.pinMode p)).draw = s.draw := rfl

/-! ### `State.act` of pinWrite -/

@[simp] theorem State.act_pinWrite_channel (s : State) (p : PinId) (l : Level) : (s.act (.pinWrite p l)).channel = s.channel := rfl
@[simp] theorem State.act_pinWrite_toggle (s : State) (p : PinId) (l : Level) : (s.act (.pinWrite p l)).toggle = s.toggle := rfl
@[simp] theorem State.act_pinWrite_pin (s : State) (p : PinId) (l : Level) : (s.act (.pinWrite p l)).pin = s.pin := rfl
@[simp] theorem State.act_pinWrite_cfgValid (s : State) (p : PinId) (l : Level) : (s.act (.pinWrite p l)).cfgValid = s.cfgValid := rfl
@[simp] theorem State.act_pinWrite_oe (s : State) (p : PinId) (l : Level) : (s.act (.pinWrite p l)).oe = s.oe := rfl
@[simp] theorem State.act_pinWrite_out (s : State) (p : PinId) (l : Level) : (s.act (.pinWrite p l)).out = l := rfl
@[simp] theorem State.act_pinWrite_msg (s : State) (p : PinId) (l : Level) : (s.act (.pinWrite p l)).msg = s.msg := rfl
@[simp] theorem State.act_pinWrite_togPending (s : State) (p : PinId) (l : Level) : (s.act (.pinWrite p l)).togPending = s.togPending := rfl
@[simp] theorem State.act_pinWrite_pos (s : State) (p : PinId) (l : Level) : (s.act (.pinWrite p l)).pos = s.pos := rfl
@[simp] theorem State.act_pinWrite_timer (s : State) (p : PinId) (l : Level) : (s.act (.pinWrite p l)).timer = s.timer := rfl
@[simp] theorem State.act_pinWrite_k (s : State) (p : PinId) (l : Level) : (s.act (.pinWrite p l)).k = s.k := rfl
@[simp] theorem State.act_pinWrite_host (s : State) (p : PinId) (l : Level) : (s.act (.pinWrite p l)).host = s.host := rfl
@[simp] theorem State.act_pinWrite_draw (s : State) (p : PinId) (l : Level) : (s.act (.pinWrite p l)).draw = s.draw := rfl

/-! ### `State.enter` -/

@[simp] theorem State.enter_channel (s : State) (p : Pos) : (s.enter p).channel = s.channel := rfl
@[simp] theorem State.enter_toggle (s : State) (p : Pos) : (s.enter p).toggle = s.toggle := rfl
@[simp] theorem State.enter_pin (s : State) (p : Pos) : (s.enter p).pin = s.pin := rfl
@[simp] theorem State.enter_cfgValid (s : State) (p : Pos) : (s.enter p).cfgValid = s.cfgValid := rfl
@[simp] theorem State.enter_oe (s : State) (p : Pos) : (s.enter p).oe = s.oe := rfl
@[simp] theorem State.enter_out (s : State) (p : Pos) : (s.enter p).out = (seg s.k s.channel s.msg p).level := rfl
@[simp] theorem State.enter_msg (s : State) (p : Pos) : (s.enter p).msg = s.msg := rfl
@[simp] theorem State.enter_togPending (s : State) (p : Pos) : (s.enter p).togPending = s.togPending := rfl
@[simp] theorem State.enter_pos (s : State) (p : Pos) : (s.enter p).pos = p := rfl
@[simp] theorem State.enter_timer (s : State) (p : Pos) : (s.enter p).timer = BitVec.ofNat 16 (seg s.k s.channel s.msg p).ticks := rfl
@[simp] theorem State.enter_k (s : State) (p : Pos) : (s.enter p).k = s.k := rfl
@[simp] theorem State.enter_host (s : State) (p : Pos) : (s.enter p).host = s.host := rfl
@[simp] theorem State.enter_draw (s : State) (p : Pos) : (s.enter p).draw = s.draw := rfl

/-! ### `State.finish` -/

@[simp] theorem State.finish_channel (s : State) : s.finish.channel = s.channel := rfl
@[simp] theorem State.finish_toggle (s : State) : s.finish.toggle = (s.toggle ^^ s.togPending) := rfl
@[simp] theorem State.finish_pin (s : State) : s.finish.pin = s.pin := rfl
@[simp] theorem State.finish_cfgValid (s : State) : s.finish.cfgValid = s.cfgValid := rfl
@[simp] theorem State.finish_oe (s : State) : s.finish.oe = s.oe := rfl
@[simp] theorem State.finish_out (s : State) : s.finish.out = s.out := rfl
@[simp] theorem State.finish_msg (s : State) : s.finish.msg = Config.freeMsg s.draw := rfl
@[simp] theorem State.finish_togPending (s : State) : s.finish.togPending = Config.freeTogPending s.draw := rfl
@[simp] theorem State.finish_pos (s : State) : s.finish.pos = .idle := rfl
@[simp] theorem State.finish_timer (s : State) : s.finish.timer = 0 := rfl
@[simp] theorem State.finish_k (s : State) : s.finish.k = s.k := rfl
@[simp] theorem State.finish_host (s : State) : s.finish.host = s.host := rfl
@[simp] theorem State.finish_draw (s : State) : s.finish.draw = s.draw + 1 := rfl

/-! ### `State.offerNext` -/

@[simp] theorem State.offerNext_channel (s : State) (w : CmdWord) : (s.offerNext w).channel = s.channel := rfl
@[simp] theorem State.offerNext_toggle (s : State) (w : CmdWord) : (s.offerNext w).toggle = s.toggle := rfl
@[simp] theorem State.offerNext_pin (s : State) (w : CmdWord) : (s.offerNext w).pin = s.pin := rfl
@[simp] theorem State.offerNext_cfgValid (s : State) (w : CmdWord) : (s.offerNext w).cfgValid = s.cfgValid := rfl
@[simp] theorem State.offerNext_oe (s : State) (w : CmdWord) : (s.offerNext w).oe = s.oe := rfl
@[simp] theorem State.offerNext_out (s : State) (w : CmdWord) : (s.offerNext w).out = .low := rfl
@[simp] theorem State.offerNext_msg (s : State) (w : CmdWord) : (s.offerNext w).msg = s.msg := rfl
@[simp] theorem State.offerNext_togPending (s : State) (w : CmdWord) : (s.offerNext w).togPending = s.togPending := rfl
@[simp] theorem State.offerNext_pos (s : State) (w : CmdWord) : (s.offerNext w).pos = .idle := rfl
@[simp] theorem State.offerNext_timer (s : State) (w : CmdWord) : (s.offerNext w).timer = 0 := rfl
@[simp] theorem State.offerNext_k (s : State) (w : CmdWord) : (s.offerNext w).k = s.k := rfl
@[simp] theorem State.offerNext_host (s : State) (w : CmdWord) : (s.offerNext w).host = .offer w :: s.host.tail := rfl
@[simp] theorem State.offerNext_draw (s : State) (w : CmdWord) : (s.offerNext w).draw = s.draw := rfl

/-- A delay writes no register. -/
@[simp] theorem State.act_delay (s : State) (d : Nat) : s.act (.delay d) = s := rfl

end Sys2Proof.Machine
end

