-- ==== Sys2Proof/Laws/Sequencer.lean ====
section
/-! SUPPORT. One lemma for each operation of the sequencer: what it can answer, and the bounds of its durations. -/

namespace Sys2Proof.Machine

/-! ## Durations -/

/-- The gaps after the first are never zero: "at least 385" (R179). -/
theorem gapUs_ge_of_pos {rep : Fin 5} (h : 0 < rep.val) (c : Channel) : 385 ≤ gapUs rep c := by
  revert rep c; decide

/-- The largest gap is 1078 (R163). -/
theorem gapUs_le (rep : Fin 5) (c : Channel) : gapUs rep c ≤ 1078 := by
  revert rep c; decide

/-- The only zero gap is the first one of channel 3 (R164). -/
theorem gapUs_eq_zero_iff (rep : Fin 5) (c : Channel) : gapUs rep c = 0 ↔ rep = 0 ∧ c = 3 := by
  revert rep c; decide

/-- A half-cycle lasts at least one tick and fits the timer. -/
theorem tHalf_bounds {k : Config} (h : k.wf = true) : 1 ≤ tHalf k ∧ tHalf k < 65536 := by
  have hp := Config.durations_pos h
  have hl := Config.durations_lt h
  unfold tHalf
  split <;> omega

/-- A data pause lasts at least one tick and fits the timer. -/
theorem dataPauseUs_bounds {k : Config} (h : k.wf = true) (b : Bool) :
    1 ≤ dataPauseUs k b ∧ dataPauseUs k b < 65536 := by
  have hp := Config.durations_pos h
  have hl := Config.durations_lt h
  unfold dataPauseUs
  split <;> omega

/-! ## Accepting a transmission -/

/-- A transmit command is carried out exactly when `cfg_valid` is 1, and then this is the state after it. -/
theorem State.transmit_next_iff {s t : State} {f : Frame} :
    s.transmit f = .next t ↔
      s.cfgValid = true ∧ t = { s with msg := f.message, togPending := f.toggles }.enter (firstPos s.channel) := by
  unfold State.transmit
  split
  · rename_i hc
    exact ⟨fun h => ⟨hc, by cases h; rfl⟩, fun h => by rw [h.2]⟩
  · rename_i hc
    exact ⟨(nomatch ·), fun h => absurd h.1 hc⟩

/-- The one way it stops (R203). -/
theorem State.transmit_fault_iff {s : State} {f : Frame} {e : Fault} :
    s.transmit f = .fault e ↔ s.cfgValid = false ∧ e = .useBeforeInit := by
  unfold State.transmit
  split
  · rename_i hc
    exact ⟨(nomatch ·), fun h => absurd h.1 (by simp [hc])⟩
  · rename_i hc
    exact ⟨fun h => ⟨by simpa using hc, by cases h; rfl⟩, fun h => by rw [h.2]⟩

/-- It refuses nothing. -/
theorem State.transmit_not_refused (s : State) (f : Frame) (r : Refusal) : s.transmit f ≠ .refused r := by
  unfold State.transmit
  split <;> simp

/-- The first position is never idle. -/
theorem firstPos_ne_idle (c : Channel) : firstPos c ≠ .idle := by
  unfold firstPos
  split <;> simp

/-! ## The busy step -/

/-- Everything a busy step can do: count down, enter the successor, or end (R183). -/
theorem State.busyStep_cases (s : State) :
    (1 < s.timer ∧ s.busyStep = { s with timer := s.timer - 1 }) ∨
    (¬ 1 < s.timer ∧ ∃ p, s.pos.next = some p ∧ s.busyStep = s.enter p) ∨
    (¬ 1 < s.timer ∧ s.pos.next = none ∧ s.busyStep = s.finish) := by
  unfold State.busyStep
  split
  · exact .inl ⟨‹_›, rfl⟩
  · split
    · exact .inr (.inl ⟨‹_›, _, ‹_›, rfl⟩)
    · exact .inr (.inr ⟨‹_›, ‹_›, rfl⟩)

/-- A busy step never writes the host's inputs. -/
@[simp] theorem State.busyStep_host (s : State) : s.busyStep.host = s.host := by
  obtain ⟨-, h⟩ | ⟨-, p, -, h⟩ | ⟨-, -, h⟩ := s.busyStep_cases <;> rw [h] <;> rfl

/-- A busy step never writes the configuration. -/
@[simp] theorem State.busyStep_k (s : State) : s.busyStep.k = s.k := by
  obtain ⟨-, h⟩ | ⟨-, p, -, h⟩ | ⟨-, -, h⟩ := s.busyStep_cases <;> rw [h] <;> rfl

/-- No successor is idle: a transmission returns to IDLE only by its end (R29). -/
theorem Pos.next_ne_idle {p q : Pos} (h : p.next = some q) : q ≠ .idle := by
  rintro rfl
  cases p <;> simp only [Pos.next] at h <;> (try split at h) <;> cases h

/-- A gap reached through `next` is never the first one (R179). -/
theorem Pos.next_gap {p : Pos} {r : Fin 5} (h : p.next = some (.gap r)) : 0 < r.val := by
  cases p with
  | stopPause q => revert q r; decide
  | _ =>
    simp only [Pos.next] at h
    first | cases h | (split at h <;> cases h)

end Sys2Proof.Machine
end

