-- ==== Sys2Proof/Laws/Step.lean ====
section
/-! SUPPORT. What one step can do, said once (spec/44_sequencer.md R181). -/

namespace Sys2Proof.Machine

/-- `busy` is not being idle (R32). -/
theorem State.busy_iff (s : State) : s.busy = true ↔ s.pos ≠ .idle := by
  simp [State.busy, State.cmdReady]

/-- Everything a step that answers a next state can have done, in the priority of R181. -/
theorem step_next_cases {s t : State} (h : step s = .next t) :
    s.k.wf = true ∧
    ((s.portInput.rst = true ∧ t = s.takeInput.resetStep) ∨
     (s.portInput.rst = false ∧ s.pos ≠ .idle ∧ t = s.takeInput.busyStep) ∨
     (s.portInput.rst = false ∧ s.pos = .idle ∧ s.portInput.cmdValid = true ∧
        ∃ i, decode s.portInput.cmdWord = .ok i ∧ exec i s.takeInput = .next t) ∨
     (s.portInput.rst = false ∧ s.pos = .idle ∧ s.portInput.cmdValid = false ∧ t = s.takeInput)) := by
  unfold step State.tick at h
  split at h
  case isFalse => cases h
  refine ⟨‹_›, ?_⟩
  unfold State.stepWith at h
  split at h
  · exact .inl ⟨‹_›, by cases h; rfl⟩
  · rename_i hr
    split at h
    · rename_i hb
      exact .inr (.inl ⟨by simpa using hr, (State.busy_iff _).1 hb, by cases h; rfl⟩)
    · rename_i hb
      have hi : s.pos = .idle := by
        by_contra hne
        exact hb ((State.busy_iff s.takeInput).2 hne)
      split at h
      · refine .inr (.inr (.inl ⟨by simpa using hr, hi, ‹_›, ?_⟩))
        unfold State.accept at h
        split at h
        · exact ⟨_, ‹_›, h⟩
        · cases h
      · rename_i hv
        exact .inr (.inr (.inr ⟨by simpa using hr, hi, by simpa using hv, by cases h; rfl⟩))

/-- A busy step, when the host does not assert `rst`. -/
theorem step_of_busy {s : State} (hk : s.k.wf = true) (hr : s.portInput.rst = false) (hp : s.pos ≠ .idle) :
    step s = .next s.takeInput.busyStep := by
  simp [step, State.tick, hk, State.stepWith, hr, State.busy, State.cmdReady, hp]

/-- The state INIT leaves, as one update. -/
theorem exec_init (p : PinId) (c : Channel) (s : State) :
    exec (.init p c) s = .next { s.configure p c with oe := true, out := .low } := rfl

/-- A transmit command is the transmission of its frame, which flips the toggle exactly for a single output command. -/
theorem exec_of_transmits {i : Instr} (s : State) (hi : i.transmits = true) :
    ∃ f, effectOf s.k s.channel s.toggle i = .transmit f ∧ exec i s = s.transmit f ∧ f.toggles = i.flips := by
  cases i
  case init => cases hi
  all_goals exact ⟨_, rfl, rfl, rfl⟩

/-- Everything a command that answers a next state can have done: INIT's registers, or an accepted transmission. -/
theorem exec_next_cases {i : Instr} {s t : State} (h : exec i s = .next t) :
    (∃ p c, i = .init p c ∧ t = { s.configure p c with oe := true, out := .low }) ∨
    (∃ f, effectOf s.k s.channel s.toggle i = .transmit f ∧ i.transmits = true ∧ f.toggles = i.flips ∧
      s.cfgValid = true ∧ t = { s with msg := f.message, togPending := f.toggles }.enter (firstPos s.channel)) := by
  cases hi : i.transmits
  · left
    cases i
    case init => cases h; exact ⟨_, _, rfl, rfl⟩
    all_goals cases hi
  · right
    obtain ⟨f, he, hf, ht⟩ := exec_of_transmits s hi
    rw [hf, State.transmit_next_iff] at h
    exact ⟨f, he, rfl, ht, h.1, h.2⟩

/-- A transmission of a frame at the command level (R110, R131). -/
theorem command_of_transmit {k : Config} {i : Instr} {r : Regs} {f : Frame}
    (h : effectOf k r.channel r.toggle i = .transmit f) : command k i r = commandSend k r f := by
  simp [command, h]

/-! ## Runs -/

/-- One step of a run. -/
theorem runFor_succ {s t : State} (n : Nat) (h : step s = .next t) : runFor (n + 1) s = runFor n t := by
  simp only [runFor, h]

/-- A run in two parts. -/
theorem runFor_add (m n : Nat) {s t : State} (h : runFor m s = .next t) : runFor (m + n) s = runFor n t := by
  induction m generalizing s with
  | zero =>
    cases h
    rw [Nat.zero_add]
  | succ m ih =>
    simp only [runFor] at h
    split at h
    · rename_i u hu
      rw [Nat.succ_add, runFor_succ _ hu, ih h]
    · cases h
    · cases h

/-- The host's run of the machine. -/
theorem runFor_eq_core (n : Nat) (s : State) : Host.Core.run core n s = runFor n s := by
  induction n generalizing s with
  | zero => rfl
  | succ n ih =>
    have hstep : core.step s = step s := rfl
    simp only [Host.Core.run, runFor, hstep]
    cases step s with
    | next t => exact ih t
    | fault e => rfl
    | refused e => rfl

/-- A host without a reset does not assert one in the present step. -/
theorem State.noReset_portInput {s : State} {n : Nat} (h : s.NoReset (n + 1)) : s.portInput.rst = false := by
  unfold State.NoReset at h
  unfold State.portInput
  cases hh : s.host with
  | nil => rfl
  | cons a l => rw [hh] at h; exact h a (by simp)

/-- Nor in the steps after it. -/
theorem State.noReset_tail {s : State} {n : Nat} (h : s.NoReset (n + 1)) :
    ∀ inp ∈ s.host.tail.take n, inp.rst = false := by
  unfold State.NoReset at h
  cases hh : s.host with
  | nil => simp
  | cons a l =>
    rw [hh] at h
    intro x hx
    exact h x (by simp only [List.tail_cons] at hx; simp [hx])

/-- `n` busy steps that do not exhaust the timer: the timer counts down, the line stays, `n` inputs are used up. -/
theorem runFor_countdown (n : Nat) {s : State} (hk : s.k.wf = true) (hp : s.pos ≠ .idle) (hn : s.NoReset n)
    (ht : n < s.timer.toNat) :
    runFor n s = .next { s with timer := s.timer - BitVec.ofNat 16 n, host := s.host.drop n } ∧
      State.observe n s = List.replicate n s.out := by
  induction n generalizing s with
  | zero => exact ⟨by simp [runFor], rfl⟩
  | succ n ih =>
    have hone : (1 : Ticks).toNat = 1 := rfl
    have hs : step s = .next { s with timer := s.timer - 1, host := s.host.tail } := by
      rw [step_of_busy hk (State.noReset_portInput hn) hp]
      unfold State.busyStep
      rw [if_pos (by simp only [State.takeInput_timer, BitVec.lt_def]; omega)]
      rfl
    have hle : 1 ≤ s.timer := by
      simp only [BitVec.le_def]
      omega
    have hsub : (s.timer - 1).toNat = s.timer.toNat - 1 := BitVec.toNat_sub_of_le hle
    obtain ⟨hr, ho⟩ := ih (s := { s with timer := s.timer - 1, host := s.host.tail }) hk hp (State.noReset_tail hn)
      (by simp only [hsub]; omega)
    refine ⟨?_, by simp only [State.observe, hs, ho, State.irOut, List.replicate_succ]⟩
    have hb : s.timer - 1 - BitVec.ofNat 16 n = s.timer - BitVec.ofNat 16 (n + 1) := by
      rw [BitVec.sub_sub, BitVec.ofNat_add, BitVec.add_comm]
      rfl
    rw [runFor_succ n hs, hr]
    simp only [hb, List.drop_tail]

end Sys2Proof.Machine
end

