-- ==== Sys2Proof/Laws/Trace.lean ====
section
/-! SUPPORT. The waveform of each piece of a trace (spec/44_sequencer.md R174, R175), for a line that is low before it. -/

namespace Sys2Proof.Machine

@[simp] theorem samples_append (a b : List Segment) : samples (a ++ b) = samples a ++ samples b := by
  simp [samples]

@[simp] theorem totalTicks_append (a b : List Segment) : totalTicks (a ++ b) = totalTicks a + totalTicks b := by
  simp [totalTicks]

@[simp] theorem highTicks_append (a b : List Segment) : highTicks (a ++ b) = highTicks a + highTicks b := by
  simp [highTicks]

/-- Holding every half-cycle changes nothing when the half-period delay is applied. -/
theorem held_eq_self {k : Config} (h : k.halfPeriodEn = true) : heldConfig k = k := by
  cases k
  simp only at h
  simp [heldConfig, tHalf, h]

/-- A cycle of a held burst is `t_half` high and `t_half` low, and leaves the line low. -/
theorem waveform_cycle (k : Config) (p : PinId) (l : Level) (t : List Action) :
    waveform l (cycleTrace (heldConfig k) p ++ t) = ⟨.high, tHalf k⟩ :: ⟨.low, tHalf k⟩ :: waveform .low t := by
  simp [cycleTrace, halfDelay, heldConfig, waveform]

/-- A gap is one low segment, or nothing. -/
theorem waveform_gap (c : Channel) (r : Fin 5) (t : List Action) :
    waveform .low (gapTrace c r ++ t) =
      (if gapUs r c = 0 then [] else [⟨.low, gapUs r c⟩]) ++ waveform .low t := by
  unfold gapTrace
  split <;> simp [waveform]

end Sys2Proof.Machine
end

