-- ==== Sys2Proof/Tests/Slice0.lean ====
section
/-! SUPPORT. Tests: the well-formedness checks, a word of every command written out from its encoding, the spec's vectors
(spec/95_test_vectors.md), and for each statement with hypotheses a state and operands that meet them. -/

namespace Sys2Proof.Tests

open Sys2Proof.Machine

/-! ## Well-formedness: an ill-formed term for each check -/

theorem test_reference_profile_is_wellformed : Config.ref.wf = true := by decide

/-- V11: the document's aside, the toggle as nib1's low bit, is refused by W1 (90_conflicts.md C1). -/
theorem test_W1_refuses_low_toggle : { Config.ref with toggleMask := 0x1 }.wf = false := by decide

/-- V11. -/
theorem test_W1_refuses_two_bits : { Config.ref with toggleMask := 0xC }.wf = false := by decide

theorem test_W2_refuses_escape_on_toggle : { Config.ref with escapeMarker := 0x8 }.wf = false := by decide

theorem test_W3_refuses_equal_modes : { Config.ref with singleExtendedMode := 0x4 }.wf = false := by decide

theorem test_W4_refuses_absorbed_selector : { Config.ref with blueSel := 0x4 }.wf = false := by decide

/-- V11: "`HIGH_PAUSE` <= `LOW_PAUSE`, or any delay constant 0". -/
theorem test_W5_refuses_short_high_pause : { Config.ref with highPause := 263 }.wf = false := by decide

theorem test_W5_refuses_zero_half_period : { Config.ref with halfPeriod := 0 }.wf = false := by decide

theorem test_R9_refuses_zero_overhead : { Config.ref with halfOverhead := 0 }.wf = false := by decide

theorem test_W6_refuses_long_pause : { Config.ref with startStopPause := 65536 }.wf = false := by decide

/-- P5: the configuration with the document's literal is well formed. -/
theorem test_document_literal_is_wellformed :
    { Config.ref with singleOutputMode := 0x1, blueSel := 0x8 }.wf = true := by decide

/-- R90: an alias has no command word of its own. -/
theorem test_alias_has_no_word : (Instr.setRed 7).wf = false ∧ (Instr.setBlue 7).wf = false := by decide

/-! ## Decoding: words written out from R85 and R86 -/

theorem test_decode_init : decode 0b0001001011110101 = .ok (.init 0b11110101 0b10) := by decide
theorem test_decode_setPower : decode 0b0010000010110111 = .ok (.setPower 0b1011 0b0111) := by decide
theorem test_decode_inc : decode 0b0011000001100000 = .ok (.inc 0b0110) := by decide
theorem test_decode_dec : decode 0b0100000010010000 = .ok (.dec 0b1001) := by decide
theorem test_decode_combo : decode 0b0101000000111100 = .ok (.combo 0b0011 0b1100) := by decide

/-- V11: the reserved words, by name. -/
theorem test_reserved_words :
    decode 0x0000 = .error .opcode ∧ decode 0x6000 = .error .opcode ∧ decode 0xFFFF = .error .opcode ∧
    decode 0x1400 = .error .zeroField ∧ decode 0x1800 = .error .zeroField ∧ decode 0x2100 = .error .zeroField ∧
    decode 0x3001 = .error .zeroField ∧ decode 0x4F05 = .error .zeroField := by decide

theorem test_encode_words :
    encode (.init 13 1) = some 0x110D ∧ encode (.setPower 15 7) = some 0x20F7 ∧ encode (.inc 15) = some 0x30F0 ∧
    encode (.dec 2) = some 0x4020 ∧ encode (.combo 3 5) = some 0x5035 := by decide

/-- R112, R113: the aliases' expansions under the reference profile. -/
theorem test_alias_words :
    encode (expand Config.ref (.setRed 7)) = some 0x2007 ∧ encode (expand Config.ref (.setBlue 8)) = some 0x2018 := by
  decide

theorem test_decodeTableWord : decodeTableWord 16 0x5035 = some (.combo 3 5) ∧ decodeTableWord 16 0x6000 = none := by
  decide

/-! ## Small states -/

/-- An initialised, idle block on the given channel with the given toggle, pin 5, under the reference profile. -/
def ready (channel : Channel) (toggle : Bool) : State where
  channel := channel
  toggle := toggle
  pin := 5
  cfgValid := true
  oe := true
  out := .low
  msg := 0
  togPending := false
  pos := .idle
  timer := 0
  k := Config.ref
  host := []
  draw := 0

/-- The same block before INIT. -/
def fresh : State := { ready 0 false with cfgValid := false, oe := false }

/-- The same block with a word on the port. -/
def offered (s : State) (w : CmdWord) : State := { s with host := [.offer w] }

/-- The block busy with the message 0x047C of V10, at a position. -/
def sending (p : Pos) (timer : Ticks) (out : Level) : State :=
  { ready 0 false with msg := 0x047C, togPending := true, pos := p, timer := timer, out := out }

/-- A field of the next state. -/
def after {α : Type} (f : State → α) : Host.Outcome State Fault Refusal → Option α
  | .next s => some (f s)
  | .fault _ => none
  | .refused _ => none

/-! ## The spec's vectors -/

/-- V2, from the reset state. -/
theorem test_init_from_reset :
    after (fun s => (s.cfgValid, s.channel, s.toggle, s.pin, s.oe, s.out)) (step (offered State.reset 0x13FF)) =
      some (true, 3, false, 255, true, .low) := by decide

/-- V2, third row: the toggle is cleared whatever it was. -/
theorem test_init_clears_toggle :
    after (fun s => (s.channel, s.toggle, s.pin, s.cmdReady)) (step (offered (ready 3 true) 0x110D)) =
      some (1, false, 13, true) := by decide

/-- V3: channel 2, toggle 1. -/
theorem test_setPower_message : after (·.msg) (step (offered (ready 2 true) 0x2007)) = some 0xA476 := by decide

/-- V3: a selector that swamps the marker bits. -/
theorem test_setPower_selector_15 : after (·.msg) (step (offered (ready 0 false) 0x20F7)) = some 0x0F77 := by decide

/-- V4. -/
theorem test_inc_message : after (·.msg) (step (offered (ready 3 true) 0x3000)) = some 0xB646 := by decide

/-- V4: `INC 15`, channel 0, toggle 1. -/
theorem test_inc_selector_15 : after (·.msg) (step (offered (ready 0 true) 0x30F0)) = some 0x8F4C := by decide

/-- V4. -/
theorem test_dec_message : after (·.msg) (step (offered (ready 2 false) 0x4010)) = some 0x275F := by decide

/-- V6: the toggle does not enter, and no flip is pending. -/
theorem test_combo_message :
    after (fun s => (s.msg, s.togPending)) (step (offered (ready 2 true) 0x5035)) = some (0x635F, false) := by decide

/-- V3, R112. -/
theorem test_setRed_message : after (·.msg) (exec (.setRed 7) (ready 2 false)) = some 0x247E := by decide

/-- V3, R113. -/
theorem test_setBlue_message : after (·.msg) (exec (.setBlue 8) (ready 1 false)) = some 0x1583 := by decide

/-- V1: checksum and assembly. -/
theorem test_assemble :
    assemble 0x1 0x2 0x3 = 0x123F ∧ assemble 0x8 0x4 0x7 = 0x8474 ∧ assemble 0xA 0x5 0xF = 0xA5FF ∧
    checksum 0x5 0x5 0x5 = 0xA := by decide

/-- V10, k = 1: the first segment is the gap. -/
theorem test_first_segment :
    after (fun s => (s.pos, s.timer, s.out, s.cmdReady)) (step (offered (ready 0 false) 0x2007)) =
      some (.gap 0, 231, .low, false) := by decide

/-- V10, channel 3: no gap, the burst begins at once (S6). -/
theorem test_first_segment_channel_3 :
    after (fun s => (s.pos, s.timer, s.out)) (step (offered (ready 3 false) 0x4000)) =
      some (.startBurst 0 0, 13, .high) := by decide

/-- V10, k = 231 to 232. -/
theorem test_gap_ends :
    after (fun s => (s.pos, s.timer, s.out)) (step (sending (.gap 0) 1 .low)) = some (.startBurst 0 0, 13, .high) := by
  decide

/-- V10, before k = 3665: bit 10 of 0x047C is the first 1. -/
theorem test_high_pause :
    after (fun s => (s.pos, s.timer)) (step (sending (.dataBurst 0 10 11) 1 .low)) = some (.dataPause 0 10, 553) := by
  decide

/-- V10, before k = 9595: bit 0 is 0. -/
theorem test_low_pause :
    after (fun s => (s.pos, s.timer)) (step (sending (.dataBurst 0 0 11) 1 .low)) = some (.dataPause 0 0, 263) := by
  decide

/-- V10, k = 11040: the second repetition's gap. -/
theorem test_second_gap :
    after (fun s => (s.pos, s.timer)) (step (sending (.stopPause 0) 1 .low)) = some (.gap 1, 385) := by decide

/-- V10, k = 56274: the end, with the toggle flipped. -/
theorem test_end_of_transmission :
    after (fun s => (s.pos, s.timer, s.out, s.toggle, s.cmdReady)) (step (sending (.stopPause 4) 1 .low)) =
      some (.idle, 0, .low, true, true) := by decide

/-- V10: reset in mid-transmission. -/
theorem test_reset_aborts :
    after (fun s => (s.cfgValid, s.oe, s.out, s.pos, s.timer))
        (step { sending (.dataBurst 0 15 0) 13 .high with host := [⟨true, true, 0x2007⟩] }) =
      some (false, false, .low, .idle, 0) := by decide

/-- V10, R207: while busy even a reserved word is not looked at. -/
theorem test_busy_ignores_reserved_word :
    after (fun s => (s.pos, s.timer)) (step (offered (sending (.gap 0) 231 .low) 0xFFFF)) = some (.gap 0, 230) := by
  decide

/-- V11, P4: a transmit command before INIT. -/
theorem test_use_before_init : step (offered fresh 0x2007) = .fault .useBeforeInit := by rfl

/-- V11: the reserved check comes first. -/
theorem test_reserved_before_fault : step (offered fresh 0x3001) = .refused .reservedCommand := by rfl

/-- V9, V10: the ticks of the spec's example. -/
theorem test_send_ticks : sendTicks Config.ref 0 0x047C = 56273 ∧ sendTicks Config.ref 3 0x365F = 62766 := by decide

/-- The word placed by `withFetchWord` is what the next step runs, from reset. -/
theorem test_withFetchWord :
    after (fun s => (s.pin, s.channel, s.cfgValid)) (step (State.reset.withFetchWord 16 0x1209)) = some (9, 2, true) := by
  decide

/-! ## Witnesses: for each statement with hypotheses, something that meets them together -/

theorem witness_EncodeThenDecode : (Instr.combo 3 5).wf = true := by decide

theorem witness_DecodeThenEncode : decode 0x110D = .ok (.init 13 1) := by decide

/-- One word for each clause of R88's list. -/
theorem witness_ReservedWordsAreRefused :
    (ready 0 false).k.wf = true ∧ (offered (ready 0 false) 0x6000).Accepts 0x6000 ∧ IsReserved 0x0000 ∧
    IsReserved 0x6000 ∧ IsReserved 0x1400 ∧ IsReserved 0x2100 ∧ IsReserved 0x5F00 ∧ IsReserved 0x3100 ∧
    IsReserved 0x4001 := by
  refine ⟨by decide, ⟨rfl, rfl, rfl, rfl⟩, ?_, ?_, ?_, ?_, ?_, ?_, ?_⟩ <;> simp [IsReserved]

theorem witness_BadConfigRunsNothing : { Config.ref with toggleMask := 0x3 }.wf = false := by decide

theorem witness_ConfigurationIsNeverWritten : ∃ t, step (offered (ready 0 false) 0x2007) = .next t := ⟨_, rfl⟩

theorem witness_ResetStepWins :
    let s := { sending (.gap 0) 231 .low with host := [⟨true, false, 0⟩] }
    s.k.wf = true ∧ s.portInput.rst = true := by decide

theorem witness_StepRunsTheDecodedCommand :
    (ready 0 false).k.wf = true ∧ (offered (ready 0 false) 0x2007).Accepts 0x2007 ∧
    decode 0x2007 = .ok (.setPower 0 7) :=
  ⟨by decide, ⟨rfl, rfl, rfl, rfl⟩, by decide⟩

theorem witness_IdleStepChangesNothing :
    (ready 0 false).k.wf = true ∧ (ready 0 false).portInput.rst = false ∧ (ready 0 false).pos = .idle ∧
    (ready 0 false).portInput.cmdValid = false := by decide

theorem witness_BusyStepIgnoresThePort :
    (sending (.gap 0) 231 .low).k.wf = true ∧ (sending (.gap 0) 231 .low).pos ≠ .idle ∧
    (PortInput.offer 0x1005).rst = false ∧ PortInput.wait.rst = false := by decide

/-- Both clauses: a fault, and each refusal. -/
theorem witness_OnlyAcceptanceStops :
    step (offered fresh 0x5035) = .fault .useBeforeInit ∧
    step (offered fresh 0x6000) = .refused .reservedCommand ∧
    step { fresh with k := { Config.ref with toggleMask := 0x1 } } = .refused .badConfig := ⟨rfl, rfl, rfl⟩

theorem witness_MessageAfterInitCarriesToggleZero :
    (∃ t, exec (.init 5 3) (ready 0 true) = .next t) ∧ (Instr.inc 0).flips = true := ⟨⟨_, rfl⟩, rfl⟩

theorem witness_TransmitBeforeInitFaults : (Instr.combo 3 5).transmits = true ∧ fresh.cfgValid = false := by decide

/-- For SetPowerCompletes, IncCompletes, DecCompletes, ComboCompletes and AliasesComplete: an initialised block with a
first gap, and one without. -/
theorem witness_TransmitCommandsComplete :
    (ready 0 true).cfgValid = true ∧ (ready 0 true).channel ≠ 3 ∧ (ready 3 false).cfgValid = true ∧
    (ready 3 false).channel = 3 := by decide

theorem witness_TransmitFrame :
    (Instr.setBlue 8).transmits = true ∧ ∃ t, exec (.setBlue 8) (ready 1 true) = .next t := ⟨rfl, _, rfl⟩

theorem witness_MessageIsFresh :
    let s := ready 1 true
    let s' := { ready 1 true with msg := 0x1234, pin := 9 }
    (Instr.dec 2).transmits = true ∧ s.k = s'.k ∧ s.channel = s'.channel ∧ s.toggle = s'.toggle ∧
    (∃ t, exec (.dec 2) s = .next t) ∧ ∃ t, exec (.dec 2) s' = .next t :=
  ⟨rfl, rfl, rfl, rfl, ⟨_, rfl⟩, ⟨_, rfl⟩⟩

theorem witness_RepeatedCommandsDifferInToggleBits :
    (ready 1 true).k.wf = true ∧ (Instr.setRed 7).flips = true ∧ (∃ t, exec (.setRed 7) (ready 1 true) = .next t) ∧
    ∃ t, exec (.setRed 7) { ready 1 true with toggle := false } = .next t :=
  ⟨by decide, rfl, ⟨_, rfl⟩, ⟨_, rfl⟩⟩

/-- Both ways to meet the last hypothesis. -/
theorem witness_SegmentsFitTheTimer :
    (ready 3 false).k.wf = true ∧ Pos.gap 1 ≠ .idle ∧ Pos.gap 1 ≠ .gap 0 ∧ (ready 2 false).channel ≠ 3 := by decide

theorem witness_BusyStepCountsDown :
    let s := sending (.gap 0) 2 .low
    s.k.wf = true ∧ s.portInput.rst = false ∧ s.pos ≠ .idle ∧ 1 < s.timer.toNat := by decide

theorem witness_LastTickEntersTheSuccessor :
    let s := sending (.dataPause 4 0) 1 .low
    s.k.wf = true ∧ s.portInput.rst = false ∧ s.pos.next = some (.stopBurst 4 0) ∧ s.timer = 1 := by decide

theorem witness_EndOfTransmission :
    let s := sending (.stopPause 4) 1 .low
    s.k.wf = true ∧ s.portInput.rst = false ∧ s.pos = .stopPause 4 ∧ s.timer = 1 := by decide

theorem witness_SegmentLastsExactlyItsTicks :
    let s := sending (.startBurst 0 11) 13 .low
    s.k.wf = true ∧ s.pos.next = some (.startPause 0) ∧ 1 ≤ s.timer.toNat ∧ s.NoReset s.timer.toNat :=
  ⟨by decide, by decide, by decide, by simp [State.NoReset, sending, ready]⟩

theorem witness_StepKeepsInvariants :
    (sending (.startBurst 0 2) 13 .high).Inv ∧ ∃ t, step (sending (.startBurst 0 2) 13 .high) = .next t := by
  refine ⟨⟨?_, ?_, ?_, ?_, ?_, ?_⟩, _, rfl⟩
  · intro h; exact absurd h (by decide)
  · intro _; decide
  · intro h; exact absurd h (by decide)
  · intro h hh; cases hh; decide
  · decide
  · intro _; decide

theorem witness_IdleLineIsLow : (ready 0 false).Inv ∧ (ready 0 false).pos = .idle ∧ (ready 0 false).cfgValid = true := by
  refine ⟨⟨fun _ => ⟨rfl, rfl⟩, fun h => absurd rfl h, fun _ => rfl, ?_, rfl, fun h => absurd rfl h⟩, rfl, rfl⟩
  intro h hh
  cases hh

theorem witness_ChannelAndPinChangeOnlyByInit :
    let s := offered (ready 0 false) 0x110D
    (∃ t, step s = .next t ∧ t.channel ≠ s.channel ∧ t.pin ≠ s.pin) ∧ s.portInput.rst = false := by
  refine ⟨⟨_, rfl, ?_, ?_⟩, rfl⟩ <;> decide

/-- Both clauses: the toggle cleared by INIT, and flipped at the end of a transmission. -/
theorem witness_ToggleChangesOnlyByInitOrEnd :
    (let s := offered (ready 0 true) 0x1005
     (∃ t, step s = .next t ∧ t.toggle ≠ s.toggle) ∧ s.portInput.rst = false) ∧
    (let s := sending (.stopPause 4) 1 .low
     (∃ t, step s = .next t ∧ t.toggle ≠ s.toggle) ∧ s.portInput.rst = false) := by
  refine ⟨⟨⟨_, rfl, ?_⟩, rfl⟩, ⟨⟨_, rfl, ?_⟩, rfl⟩⟩ <;> decide

theorem witness_MessageIsStableWhileBusy :
    let s := sending (.stopPause 0) 1 .low
    s.pos ≠ .idle ∧ ∃ t, step s = .next t ∧ t.pos ≠ .idle := by
  refine ⟨by decide, _, rfl, by decide⟩

theorem witness_InitialisationLastsUntilReset :
    let s := sending (.gap 0) 1 .low
    (∃ t, step s = .next t) ∧ s.portInput.rst = false ∧ s.cfgValid = true ∧ s.oe = true :=
  ⟨⟨_, rfl⟩, rfl, rfl, rfl⟩

theorem witness_NoZeroDelay : Config.ref.wf = true ∧ .delay 231 ∈ sendTrace Config.ref 5 0 0x047C := by
  refine ⟨by decide, ?_⟩
  have h : (sendTrace Config.ref 5 0 0x047C).head? = some (.delay 231) := rfl
  exact List.mem_of_head? h

theorem witness_ToggleParity : ∀ i ∈ [Instr.setRed 7, .combo 3 5, .inc 1], i.transmits = true := by decide

/-- For TransmissionTakesT and TransmissionPlaysItsTrace. -/
theorem witness_TransmissionTakesT :
    (ready 0 false).k.wf = true ∧ (Instr.setPower 0 7).transmits = true ∧
    ∃ t, exec (.setPower 0 7) (ready 0 false) = .next t ∧ t.NoReset (sendTicks t.k t.channel t.msg) :=
  ⟨by decide, rfl, _, rfl, by simp [State.NoReset, State.enter, ready]⟩

theorem witness_SequenceOfCommandsIsTheFold :
    let s := { ready 0 false with host := script Config.ref [.init 13 1] (ready 0 false).regs }
    s.k.wf = true ∧ s.pos = .idle ∧ (∀ i ∈ [Instr.init 13 1], i.wf = true) ∧
    (∃ r tr, commands s.k [.init 13 1] s.regs = .next (r, tr)) ∧ s.host = script s.k [.init 13 1] s.regs :=
  ⟨by decide, rfl, by decide, ⟨_, _, rfl⟩, rfl⟩

/-- A sequence with a transmission goes through at the command level too, from any host. -/
theorem witness_SequenceWithTransmission :
    (∀ i ∈ [Instr.init 5 3, .dec 0, .combo 3 5], i.wf = true) ∧
    ∃ r tr, commands Config.ref [.init 5 3, .dec 0, .combo 3 5] fresh.regs = .next (r, tr) :=
  ⟨by decide, ⟨_, _, rfl⟩⟩

theorem witness_SequenceFaultsAsTheFold :
    let s := { fresh with host := script Config.ref [.combo 3 5] fresh.regs }
    s.k.wf = true ∧ s.pos = .idle ∧ (∀ i ∈ [Instr.combo 3 5], i.wf = true) ∧
    commands s.k [.combo 3 5] s.regs = .fault .useBeforeInit ∧ s.host = script s.k [.combo 3 5] s.regs :=
  ⟨by decide, rfl, by decide, rfl, rfl⟩

end Sys2Proof.Tests
end

section
/-! The proofs of the family `00_scope`: what the configuration check says (spec/00_scope.md R10), that no step writes
the configuration (R31), and that no duration it allows is zero or too long for the timer (R14, R164, R178). -/

namespace Sys2Proof

/-! ## The six checks as statements about numbers -/

/-- W1. -/
theorem Config.maskWf_iff (k : Config) : k.maskWf = true ↔ k.toggleMask = 0x4 ∨ k.toggleMask = 0x8 := by
  have bits : ∀ m : Nibble, (m.cpop == 1 && m &&& 0x3 == 0) = true ↔ m = 0x4 ∨ m = 0x8 := by decide
  exact bits k.toggleMask

/-- W2, which refers to the toggle mask: above the channel bits, W1 leaves the escape marker one bit only. -/
theorem Config.escapeWf_iff {k : Config} (h : k.toggleMask = 0x4 ∨ k.toggleMask = 0x8) :
    k.escapeWf = true ↔ (k.escapeMarker = 0x4 ∨ k.escapeMarker = 0x8) ∧ k.escapeMarker ≠ k.toggleMask := by
  have bits : ∀ m e : Nibble, m = 0x4 ∨ m = 0x8 →
      ((e != 0 && e &&& 0x3 == 0 && e &&& m == 0) = true ↔ (e = 0x4 ∨ e = 0x8) ∧ e ≠ m) := by decide
  exact bits k.toggleMask k.escapeMarker h

/-- W3. -/
theorem Config.modesWf_iff (k : Config) : k.modesWf = true ↔ k.singleOutputMode ≠ k.singleExtendedMode := by
  simp [Config.modesWf]

/-- W4. -/
theorem Config.selectorsWf_iff (k : Config) : k.selectorsWf = true ↔
    k.singleOutputMode ||| k.redSel ≠ k.singleOutputMode ||| k.blueSel ∧
      k.singleExtendedMode ||| k.redSel ≠ k.singleExtendedMode ||| k.blueSel := by
  simp [Config.selectorsWf]

/-- W5, with R9's bound on `HALF_OVERHEAD` (log 8). -/
theorem Config.pausesWf_iff (k : Config) : k.pausesWf = true ↔
    1 ≤ k.halfPeriod ∧ 1 ≤ k.lowPause ∧ k.lowPause < k.highPause ∧ 1 ≤ k.startStopPause ∧ 1 ≤ k.halfOverhead := by
  simp [Config.pausesWf, and_assoc]

/-- W6: the maximum lies below 2^16 when each duration does, since the longest gap always does. -/
theorem Config.durationsWf_iff (k : Config) : k.durationsWf = true ↔
    k.halfPeriod < 65536 ∧ k.highPause < 65536 ∧ k.startStopPause < 65536 ∧ k.halfOverhead < 65536 := by
  simp [Config.durationsWf]

/-- Settles O6: each check is its number form, W2 under W1. -/
theorem wellFormedIsW1ToW6 : Obligations.WellFormedIsW1ToW6 := by
  intro k
  calc k.wf = true
      ↔ k.maskWf = true ∧ k.escapeWf = true ∧ k.modesWf = true ∧ k.selectorsWf = true ∧ k.pausesWf = true ∧
          k.durationsWf = true := by simp only [Config.wf, Bool.and_eq_true, and_assoc]
    _ ↔ _ := by
      rw [k.maskWf_iff, k.modesWf_iff, k.selectorsWf_iff, k.pausesWf_iff, k.durationsWf_iff]
      refine and_congr_right fun hmask => ?_
      rw [Config.escapeWf_iff hmask]
      simp only [and_assoc]

end Sys2Proof

namespace Sys2Proof.Machine

/-! ## The configuration is never written -/

/-- A command that completes leaves the configuration alone: INIT writes four registers and the line, a transmit command
the message and the first segment. -/
theorem exec_k {i : Instr} {s t : State} (h : exec i s = .next t) : t.k = s.k := by
  obtain ⟨p, c, -, rfl⟩ | ⟨f, -, -, -, -, rfl⟩ := exec_next_cases h
  · exact State.configure_k s p c
  · exact State.enter_k _ _

/-- Settles O8, by the four cases of a step (R181). -/
theorem configurationIsNeverWritten : Obligations.ConfigurationIsNeverWritten := by
  intro s t h
  obtain ⟨-, ⟨-, rfl⟩ | ⟨-, -, rfl⟩ | ⟨-, -, -, i, -, hexec⟩ | ⟨-, -, -, rfl⟩⟩ := step_next_cases h
  case inl => simp
  case inr.inl => simp
  case inr.inr.inl => simpa using exec_k hexec
  case inr.inr.inr => simp

/-! ## Segments -/

/-- Under a well-formed configuration every segment but the skipped gap lasts at least one tick and fits the timer. -/
theorem seg_ticks_bounds {k : Config} (hk : k.wf = true) (c : Channel) (m : Message) {p : Pos} (hidle : p ≠ .idle)
    (hgap : p ≠ .gap 0 ∨ c ≠ 3) : 1 ≤ (seg k c m p).ticks ∧ (seg k c m p).ticks < 65536 := by
  have hpause : 1 ≤ k.startStopPause ∧ k.startStopPause < 65536 := by
    have hpos := Config.durations_pos hk
    have hlt := Config.durations_lt hk
    omega
  cases p with
  | idle => exact absurd rfl hidle
  | gap r =>
    have hne : gapUs r c ≠ 0 := by
      rw [Ne, gapUs_eq_zero_iff]
      rintro ⟨rfl, rfl⟩
      simp at hgap
    have hle := gapUs_le r c
    simp only [seg]
    omega
  | startBurst r h => exact tHalf_bounds hk
  | startPause r => exact hpause
  | dataBurst r b h => exact tHalf_bounds hk
  | dataPause r b => exact dataPauseUs_bounds hk _
  | stopBurst r h => exact tHalf_bounds hk
  | stopPause r => exact hpause

/-- Settles O32: a duration below 2^16 is not truncated when the timer is loaded. -/
theorem segmentsFitTheTimer : Obligations.SegmentsFitTheTimer := by
  intro s p hk hidle hgap
  obtain ⟨hpos, hlt⟩ := seg_ticks_bounds hk s.channel s.msg hidle hgap
  refine ⟨hpos, ?_⟩
  rw [State.enter_timer, BitVec.toNat_ofNat, Nat.mod_eq_of_lt hlt]

/-! ## The delays of a trace -/

/-- The only delay of a burst is the half-period, when it is applied at all (R165). -/
@[simp] theorem delay_mem_burstTrace {k : Config} {p : PinId} {d : Nat} :
    .delay d ∈ burstTrace k p ↔ k.halfPeriodEn = true ∧ d = k.halfPeriod := by
  cases h : k.halfPeriodEn <;> simp [burstTrace, cycleTrace, halfDelay, h]

/-- A start or stop bit ends with its pause (R166, R169). -/
@[simp] theorem delay_mem_startStopTrace {k : Config} {p : PinId} {d : Nat} :
    .delay d ∈ startStopTrace k p ↔ (k.halfPeriodEn = true ∧ d = k.halfPeriod) ∨ d = k.startStopPause := by
  simp [startStopTrace]

/-- A data bit ends with the pause that encodes it (R167). -/
@[simp] theorem delay_mem_dataBitTrace {k : Config} {p : PinId} {b : Bool} {d : Nat} :
    .delay d ∈ dataBitTrace k p b ↔ (k.halfPeriodEn = true ∧ d = k.halfPeriod) ∨ d = dataPauseUs k b := by
  simp [dataBitTrace]

/-- A gap is one delay, or none when it is zero (R164). -/
@[simp] theorem delay_mem_gapTrace {c : Channel} {r : Fin 5} {d : Nat} :
    .delay d ∈ gapTrace c r ↔ gapUs r c ≠ 0 ∧ d = gapUs r c := by
  unfold gapTrace
  split <;> simp [*]

/-- Where a delay of a repetition comes from: a burst, the pause of the start or stop bit, or the pause of a data bit. -/
theorem delay_mem_messageTrace {k : Config} {p : PinId} {m : Message} {d : Nat} (h : .delay d ∈ messageTrace k p m) :
    d = k.halfPeriod ∨ d = k.startStopPause ∨ ∃ b, d = dataPauseUs k b := by
  simp only [messageTrace, List.mem_append, List.mem_flatMap, delay_mem_startStopTrace, delay_mem_dataBitTrace] at h
  obtain (h | ⟨i, -, h⟩) | h := h
  · tauto
  · obtain ⟨-, h⟩ | h := h
    · exact .inl h
    · exact .inr (.inr ⟨_, h⟩)
  · tauto

/-- Settles O44: a gap is emitted only when it is not zero, and every other delay is a duration of the configuration. -/
theorem noZeroDelay : Obligations.NoZeroDelay := by
  intro k p c m d hk h
  have hpos := Config.durations_pos hk
  obtain ⟨r, -, h⟩ := List.mem_flatMap.1 h
  obtain h | h := List.mem_append.1 h
  · obtain ⟨hne, rfl⟩ := delay_mem_gapTrace.1 h
    exact Nat.one_le_iff_ne_zero.2 hne
  · obtain rfl | rfl | ⟨b, rfl⟩ := delay_mem_messageTrace h
    · exact hpos.1
    · omega
    · exact (dataPauseUs_bounds hk b).1

end Sys2Proof.Machine
end

section
/-! The proofs of the family `10_state`: the reset values (spec/10_state.md R34), the invariants of a single state
(R33 I1 to I4, R91), and which registers a step may change (R33 I5 to I7, R26). -/

namespace Sys2Proof.Machine

/-! ## What one step does -/

/-- The ways from a state to the next one: R181's four cases, with the busy step split as R183 and R184 do and the
acceptance by the kind of command. -/
inductive Transition (s : State) : State → Prop
  | reset (hrst : s.portInput.rst = true) : Transition s s.takeInput.resetStep
  | countDown (hbusy : s.pos ≠ .idle) (hrun : 1 < s.timer) :
      Transition s { s.takeInput with timer := s.timer - 1 }
  | advance (p : Pos) (hbusy : s.pos ≠ .idle) (hnext : s.pos.next = some p) : Transition s (s.takeInput.enter p)
  | finish (hbusy : s.pos ≠ .idle) (hend : s.pos.next = none) : Transition s s.takeInput.finish
  | init (w : CmdWord) (p : PinId) (c : Channel) (hacc : s.Accepts w) (hdec : decode w = .ok (.init p c)) :
      Transition s { s.takeInput.configure p c with oe := true, out := .low }
  | send (f : Frame) (hidle : s.pos = .idle) (hcfg : s.cfgValid = true) :
      Transition s ({ s.takeInput with msg := f.message, togPending := f.toggles }.enter (firstPos s.channel))
  | idle (hidle : s.pos = .idle) : Transition s s.takeInput

/-- A step that answers a next state is one of these transitions, under a well-formed configuration. -/
theorem transition_of_step {s t : State} (h : step s = .next t) : s.k.wf = true ∧ Transition s t := by
  obtain ⟨hk, ⟨hrst, rfl⟩ | ⟨-, hbusy, rfl⟩ | ⟨hrst, hidle, hvalid, i, hdec, hexec⟩ | ⟨-, hidle, -, rfl⟩⟩ :=
    step_next_cases h <;> refine ⟨hk, ?_⟩
  · exact .reset hrst
  · obtain ⟨hrun, h⟩ | ⟨-, p, hnext, h⟩ | ⟨-, hend, h⟩ := s.takeInput.busyStep_cases <;> rw [h]
    · exact .countDown hbusy hrun
    · exact .advance p hbusy hnext
    · exact .finish hbusy hend
  · obtain ⟨p, c, rfl, rfl⟩ | ⟨f, -, -, -, hcfg, rfl⟩ := exec_next_cases hexec
    · exact .init _ p c ⟨hrst, hidle, hvalid, rfl⟩ hdec
    · exact .send f hidle hcfg
  · exact .idle hidle

/-! ## Facts the invariants turn on -/

/-- A message is its four nibbles one after another: bit by bit, each shifted nibble lands in its own four bits (R142). -/
theorem assemble_eq_append (n1 n2 n3 : Nibble) : assemble n1 n2 n3 = n1 ++ n2 ++ n3 ++ checksum n1 n2 n3 := by
  ext i hi
  grind [assemble]

/-- The four nibbles read back from a message (R142). -/
theorem assemble_nibbles (n1 n2 n3 : Nibble) :
    (assemble n1 n2 n3).extractLsb' 12 4 = n1 ∧ (assemble n1 n2 n3).extractLsb' 8 4 = n2 ∧
      (assemble n1 n2 n3).extractLsb' 4 4 = n3 ∧ (assemble n1 n2 n3).extractLsb' 0 4 = checksum n1 n2 n3 := by
  rw [assemble_eq_append]
  refine ⟨?_, ?_, ?_, ?_⟩
  · rw [BitVec.extractLsb'_append_eq_of_le (by decide), BitVec.extractLsb'_append_eq_of_le (by decide),
      BitVec.extractLsb'_append_eq_left]
  · rw [BitVec.extractLsb'_append_eq_of_le (by decide), BitVec.extractLsb'_append_eq_of_le (by decide),
      BitVec.extractLsb'_append_eq_right]
  · rw [BitVec.extractLsb'_append_eq_of_le (by decide), BitVec.extractLsb'_append_eq_right]
  · rw [BitVec.extractLsb'_append_eq_right]

/-- Every assembled message carries a correct checksum (R141): the XOR takes each of the three nibbles twice. -/
theorem nibbleXor_assemble (n1 n2 n3 : Nibble) : nibbleXor (assemble n1 n2 n3) = 0xF := by
  obtain ⟨h1, h2, h3, h4⟩ := assemble_nibbles n1 n2 n3
  calc nibbleXor (assemble n1 n2 n3)
      = n1 ^^^ n2 ^^^ n3 ^^^ checksum n1 n2 n3 := by rw [nibbleXor, h1, h2, h3, h4]
    _ = 0xF ^^^ (n1 ^^^ n1) ^^^ (n2 ^^^ n2) ^^^ (n3 ^^^ n3) := by unfold checksum; ac_rfl
    _ = 0xF := by simp

/-- The line is low in gaps and pauses (R178). -/
theorem seg_level_of_isPause {p : Pos} (h : p.isPause = true) (k : Config) (c : Channel) (m : Message) :
    (seg k c m p).level = .low := by
  cases p with
  | gap | startPause | dataPause | stopPause => rfl
  | _ => cases h

/-- In a burst the half-cycle gives the level (R29, R178). -/
theorem seg_level_of_burstHalf {p : Pos} {i : Fin 12} (h : p.burstHalf = some i) (k : Config) (c : Channel)
    (m : Message) : (seg k c m p).level = halfLevel i := by
  cases p with
  | startBurst | dataBurst | stopBurst => cases h; rfl
  | _ => cases h

/-- A transmission ends in a pause, so its last level is low (R168). -/
theorem Pos.isPause_of_next_eq_none {p : Pos} (hbusy : p ≠ .idle) (h : p.next = none) : p.isPause = true := by
  cases p with
  | idle => exact absurd rfl hbusy
  | stopPause r => rfl
  | _ => cases h

/-- The first position is not the gap that channel 3 skips (R164, R180). -/
theorem firstPos_lasts (c : Channel) : firstPos c ≠ .gap 0 ∨ c ≠ 3 := by
  revert c; decide

/-! ## The invariants of a single state -/

/-- An idle state has the invariants as soon as it is quiet. -/
theorem State.Inv.of_idle {s : State} (hpos : s.pos = .idle) (htimer : s.timer = 0) (hout : s.out = .low)
    (hoe : s.oe = s.cfgValid) : s.Inv where
  idle_quiet _ := ⟨htimer, hout⟩
  busy_live hbusy := absurd hpos hbusy
  pause_low _ := hout
  burst_level i hi := by rw [hpos] at hi; cases hi
  oe_configured := hoe
  msg_checked hbusy := absurd hpos hbusy

/-- The inputs of a step are no part of the invariants. -/
theorem State.Inv.takeInput {s : State} (h : s.Inv) : s.takeInput.Inv :=
  ⟨h.idle_quiet, h.busy_live, h.pause_low, h.burst_level, h.oe_configured, h.msg_checked⟩

/-- Counting down keeps the invariants as long as the timer stays above zero. -/
theorem State.Inv.countDown {s : State} (h : s.Inv) (hbusy : s.pos ≠ .idle) (hrun : 1 < s.timer) :
    { s with timer := s.timer - 1 }.Inv where
  idle_quiet hidle := absurd hidle hbusy
  busy_live _ := by
    obtain ⟨hcfg, hoe, -⟩ := h.busy_live hbusy
    exact ⟨hcfg, hoe, by bv_omega⟩
  pause_low := h.pause_low
  burst_level := h.burst_level
  oe_configured := h.oe_configured
  msg_checked := h.msg_checked

/-- Entering a position of an initialised block with a checked message gives the invariants: the line takes the level of
the segment, and the timer its duration, which is not zero. -/
theorem State.Inv.enter {s : State} {p : Pos} (hk : s.k.wf = true) (hcfg : s.cfgValid = true)
    (hoe : s.oe = s.cfgValid) (hmsg : nibbleXor s.msg = 0xF) (hbusy : p ≠ .idle)
    (hgap : p ≠ .gap 0 ∨ s.channel ≠ 3) : (s.enter p).Inv where
  idle_quiet hidle := absurd hidle hbusy
  busy_live _ := by
    obtain ⟨hpos, hexact⟩ := segmentsFitTheTimer s p hk hbusy hgap
    refine ⟨hcfg, hoe.trans hcfg, ?_⟩
    rw [BitVec.le_def, hexact]
    exact hpos
  pause_low h := seg_level_of_isPause h ..
  burst_level _ h := seg_level_of_burstHalf h ..
  oe_configured := hoe
  msg_checked _ := hmsg

/-- The end of a transmission leaves a quiet block: the last position is a pause. -/
theorem State.Inv.finish {s : State} (h : s.Inv) (hbusy : s.pos ≠ .idle) (hend : s.pos.next = none) :
    s.finish.Inv :=
  .of_idle rfl rfl (h.pause_low (Pos.isPause_of_next_eq_none hbusy hend)) h.oe_configured

/-- Settles O37, by the transitions of a step. -/
theorem stepKeepsInvariants : Obligations.StepKeepsInvariants := by
  intro s t hs h
  obtain ⟨hk, htrans⟩ := transition_of_step h
  cases htrans with
  | reset => exact .of_idle rfl rfl rfl rfl
  | countDown hbusy hrun => exact hs.takeInput.countDown hbusy hrun
  | advance p hbusy hnext =>
    have hgap : p ≠ .gap 0 := by
      rintro rfl
      exact absurd (Pos.next_gap hnext) (by decide)
    exact .enter hk (hs.busy_live hbusy).1 hs.oe_configured (hs.msg_checked hbusy) (Pos.next_ne_idle hnext) (.inl hgap)
  | finish hbusy hend => exact hs.takeInput.finish hbusy hend
  | init w p c hacc =>
    obtain ⟨-, hidle, -, -⟩ := hacc
    exact .of_idle hidle (hs.idle_quiet hidle).1 rfl rfl
  | send f hidle hcfg =>
    exact .enter hk hcfg hs.oe_configured (nibbleXor_assemble ..) (firstPos_ne_idle _) (firstPos_lasts _)
  | idle => exact hs.takeInput

/-- Settles O38. -/
theorem resetHasInvariants : Obligations.ResetHasInvariants :=
  .of_idle rfl rfl rfl rfl

/-! ## Which registers a step may change -/

/-- Settles O40: of the transitions without `rst`, INIT's alone writes `channel` and `pin`. -/
theorem channelAndPinChangeOnlyByInit : Obligations.ChannelAndPinChangeOnlyByInit := by
  intro s t h hne hrst
  cases (transition_of_step h).2 with
  | reset hrst' => simp [hrst] at hrst'
  | init w p c hacc hdec => exact ⟨w, p, c, hacc, hdec, rfl, rfl⟩
  | countDown | advance | finish | send | idle => simp at hne

/-- Settles O41: of the transitions without `rst`, INIT's and the end's alone write `toggle`, and the end's XOR with
`tog_pending` changes it only when that is 1. -/
theorem toggleChangesOnlyByInitOrEnd : Obligations.ToggleChangesOnlyByInitOrEnd := by
  intro s t h hne hrst
  cases (transition_of_step h).2 with
  | reset hrst' => simp [hrst] at hrst'
  | init w p c hacc hdec => exact .inl ⟨rfl, w, p, c, hacc, hdec⟩
  | finish hbusy =>
    cases hpend : s.togPending with
    | false => simp [hpend] at hne
    | true => exact .inr ⟨hbusy, rfl, rfl, by simp [hpend]⟩
  | countDown | advance | send | idle => simp at hne

/-- Settles O42: only counting down and entering a successor lead from a busy state to a busy one. -/
theorem messageIsStableWhileBusy : Obligations.MessageIsStableWhileBusy := by
  intro s t h hs ht
  cases (transition_of_step h).2 with
  | countDown | advance => exact ⟨rfl, rfl⟩
  | reset | finish => exact absurd rfl ht
  | init w p c hacc =>
    obtain ⟨-, hidle, -, -⟩ := hacc
    exact absurd hidle hs
  | send f hidle | idle hidle => exact absurd hidle hs

/-- Settles O43: of the transitions without `rst`, INIT's sets `cfg_valid` and `oe`, and no other writes them. -/
theorem initialisationLastsUntilReset : Obligations.InitialisationLastsUntilReset := by
  intro s t h hrst
  cases (transition_of_step h).2 with
  | reset hrst' => simp [hrst] at hrst'
  | init => exact ⟨fun _ => rfl, fun _ => rfl⟩
  | countDown | advance | finish | send | idle => exact ⟨id, id⟩

/-! ## The reset values, and the toggle as a stored mask -/

/-- Settles O9: the values are those `State.reset` states, none of them a free one. -/
theorem resetState : Obligations.ResetState :=
  ⟨rfl, rfl, rfl, rfl, rfl, rfl, rfl⟩

/-- Settles O26: at toggle 0 the flip gives `0 ^ mask`, at toggle 1 `mask ^ mask`. -/
theorem storedMaskIsTheToggle : Obligations.StoredMaskIsTheToggle := by
  intro k toggle
  refine ⟨rfl, rfl, ?_⟩
  cases toggle with
  | false => exact BitVec.zero_xor.symm
  | true => exact BitVec.xor_self.symm

end Sys2Proof.Machine
end

section
/-! Reading back a command word (spec/30_encoding.md R85 to R87): the rows are told apart by their opcodes, and the
operand fields are the nibbles the formats put there. -/

namespace Sys2Proof

/-- The opcode of a word a row selects is the row's own: every mask keeps the top nibble. -/
theorem Row.opcode_of_covers {r : Row} (hr : r ∈ rows) {w : CmdWord} (h : r.covers w = true) :
    w.extractLsb' 12 4 = r.pattern.extractLsb' 12 4 := by
  have hmask : ∀ r ∈ rows, r.mask.extractLsb' 12 4 = BitVec.allOnes 4 := by decide
  rw [← beq_iff_eq.1 h, BitVec.extractLsb'_and, hmask r hr, BitVec.and_allOnes]

/-- A word that a row selects is decoded by that row: no two rows share an opcode (R86). -/
theorem decode_of_covers {r : Row} (hr : r ∈ rows) {w : CmdWord} (h : r.covers w = true) :
    decode w = .ok (r.operands w) := by
  have hopcodes : (rows.map (·.pattern.extractLsb' 12 4)).Nodup := by decide
  have hsome : (rows.find? (·.covers w)).isSome = true := List.find?_isSome.2 ⟨r, hr, h⟩
  obtain ⟨r', hfind⟩ := Option.isSome_iff_exists.1 hsome
  have hr' : r' ∈ rows := List.mem_of_find?_eq_some hfind
  have hcovers : r'.covers w = true := List.find?_some (p := fun r : Row => r.covers w) hfind
  have hsame : r' = r := List.inj_on_of_nodup_map hopcodes hr' hr
    ((Row.opcode_of_covers hr' hcovers).symm.trans (Row.opcode_of_covers hr h))
  simp only [decode, hfind, hsame]

/-- The formats `P` and `S`: an opcode, a nibble held at zero, and two nibbles, the last held at zero or free as the mask
says. -/
theorem decode_nibbles {r : Row} (hr : r ∈ rows) (op m : Nibble)
    (hmask : r.mask = 0xF#4 ++ 0xF#4 ++ 0#4 ++ m) (hpattern : r.pattern = op ++ 0#4 ++ 0#4 ++ 0#4)
    (a b : Nibble) (hb : b &&& m = 0#4) :
    decode (op ++ 0#4 ++ a ++ b) = .ok (r.operands (op ++ 0#4 ++ a ++ b)) := by
  refine decode_of_covers hr (beq_iff_eq.2 ?_)
  have hop : op &&& 0xF#4 = op := BitVec.and_allOnes
  rw [hmask, hpattern, BitVec.and_append, BitVec.and_append, BitVec.and_append, hop, BitVec.and_zero, hb]
  rfl

/-- The third nibble of a word of four. -/
theorem nibbles_third (a b c d : Nibble) : (a ++ b ++ c ++ d).extractLsb' 4 4 = c := by
  rw [BitVec.extractLsb'_append_eq_of_le (by decide), BitVec.extractLsb'_append_eq_right]

/-- The last nibble of a word of four. -/
theorem nibbles_last (a b c d : Nibble) : (a ++ b ++ c ++ d).extractLsb' 0 4 = d :=
  BitVec.extractLsb'_append_eq_right

/-- The format `I`. -/
theorem decode_initWord (p : PinId) (c : Channel) : decode (0x1#4 ++ 0#2 ++ c ++ p) = .ok (.init p c) := by
  have hcovers : (0x1#4 ++ 0#2 ++ c ++ p) &&& (0xF#4 ++ 0x3#2 ++ 0#2 ++ 0#8) = 0x1000#16 := by
    rw [BitVec.and_append, BitVec.and_append, BitVec.and_append, BitVec.and_zero, BitVec.and_zero]
    rfl
  have hc : (0x1#4 ++ 0#2 ++ c ++ p).extractLsb' 8 2 = c := by
    rw [BitVec.extractLsb'_append_eq_of_le (by decide), BitVec.extractLsb'_append_eq_right]
  have hp : (0x1#4 ++ 0#2 ++ c ++ p).extractLsb' 0 8 = p := BitVec.extractLsb'_append_eq_right
  rw [decode_of_covers (r := rows[0]) (List.getElem_mem _) (beq_iff_eq.2 hcovers)]
  simp only [rows, List.getElem_cons_zero, hc, hp]

/-- A command that has a word is read back from it. -/
theorem exists_word_of_wf {i : Instr} (hi : i.wf = true) : ∃ w, encode i = some w ∧ decode w = .ok i := by
  cases i with
  | init p c => exact ⟨_, rfl, decode_initWord p c⟩
  | setPower sel level =>
    have hdecode := decode_nibbles (r := rows[1]) (List.getElem_mem _) 0x2#4 0x0#4 rfl rfl sel level BitVec.and_zero
    refine ⟨_, rfl, hdecode.trans ?_⟩
    simp [rows, nibbles_third, nibbles_last, -BitVec.reduceAppend]
  | inc sel =>
    have hdecode := decode_nibbles (r := rows[2]) (List.getElem_mem _) 0x3#4 0xF#4 rfl rfl sel 0#4 BitVec.zero_and
    refine ⟨_, rfl, hdecode.trans ?_⟩
    simp [rows, nibbles_third, -BitVec.reduceAppend]
  | dec sel =>
    have hdecode := decode_nibbles (r := rows[3]) (List.getElem_mem _) 0x4#4 0xF#4 rfl rfl sel 0#4 BitVec.zero_and
    refine ⟨_, rfl, hdecode.trans ?_⟩
    simp [rows, nibbles_third, -BitVec.reduceAppend]
  | combo a b =>
    have hdecode := decode_nibbles (r := rows[4]) (List.getElem_mem _) 0x5#4 0x0#4 rfl rfl a b BitVec.and_zero
    refine ⟨_, rfl, hdecode.trans ?_⟩
    simp [rows, nibbles_third, nibbles_last, -BitVec.reduceAppend]
  | setRed level => cases hi
  | setBlue level => cases hi

end Sys2Proof
end

section
/-! A transmission played tick by tick (spec/44_sequencer.md R160, R176 to R186): the sequencer goes through the positions
of the loop of `send`, each for exactly its ticks, `T` ticks in all, and ends in an idle block. -/

namespace Sys2Proof.Machine

/-! ## Stretches of a run in which the block is busy -/

/-- `n` steps from `s` to `t`, the block busy before each, with the levels of the line in the `n` states: what the rules
about the busy time (R185) and the waveform (R186) of a transmission speak of too. -/
structure BusyRun (n : Nat) (s t : State) (levels : List Level) : Prop where
  run : runFor n s = .next t
  busy : ∀ m < n, ∃ u, runFor m s = .next u ∧ u.busy = true
  line : State.observe n s = levels

/-- Observing a run in two parts. -/
theorem observe_add (m n : Nat) {s t : State} (h : runFor m s = .next t) :
    State.observe (m + n) s = State.observe m s ++ State.observe n t := by
  induction m generalizing s with
  | zero =>
    cases h
    rw [Nat.zero_add]
    rfl
  | succ m ih =>
    cases hs : step s with
    | next u =>
      rw [runFor_succ m hs] at h
      simp only [Nat.succ_add, State.observe, hs, ih h, List.cons_append]
    | fault e => simp [runFor, hs] at h
    | refused e => simp [runFor, hs] at h

theorem BusyRun.nil (s : State) : BusyRun 0 s s [] :=
  ⟨rfl, fun _ hm => absurd hm (Nat.not_lt_zero _), rfl⟩

theorem BusyRun.append {m n : Nat} {s t u : State} {l l' : List Level} (h : BusyRun m s t l) (h' : BusyRun n t u l') :
    BusyRun (m + n) s u (l ++ l') where
  run := by rw [runFor_add m n h.run, h'.run]
  busy j hj := by
    obtain hlt | hle := Nat.lt_or_ge j m
    · exact h.busy j hlt
    · obtain ⟨i, rfl⟩ := Nat.exists_eq_add_of_le hle
      rw [runFor_add m i h.run]
      exact h'.busy i (by omega)
  line := by rw [observe_add m n h.run, h.line, h'.line]

/-! ## One segment -/

/-- The state `n` ticks later, when only the host's inputs are used up. -/
def State.skip (s : State) (n : Nat) : State :=
  { s with host := s.host.drop n }

theorem State.skip_skip (s : State) (m n : Nat) : (s.skip m).skip n = s.skip (m + n) := by
  simp only [State.skip, List.drop_drop]

/-- Go on at the successor a position names, or end the transmission with the line low (R183, R184). -/
def State.proceed (s : State) : Option Pos → State
  | some p => s.enter p
  | none => { s with out := .low }.finish

/-- A position whose segment lasts: not idle, and not the gap that channel 3 skips (R164). -/
def Pos.Lasts (p : Pos) (c : Channel) : Prop :=
  p ≠ .idle ∧ (p ≠ .gap 0 ∨ c ≠ 3)

theorem Pos.Lasts.firstPos (c : Channel) : (Machine.firstPos c).Lasts c :=
  ⟨firstPos_ne_idle c, firstPos_lasts c⟩

/-- Every successor lasts (R179). -/
theorem Pos.Lasts.of_next {p q : Pos} (h : p.next = some q) (c : Channel) : q.Lasts c := by
  refine ⟨Pos.next_ne_idle h, .inl ?_⟩
  rintro rfl
  exact absurd (Pos.next_gap h) (by decide)

/-- The last tick of a segment (R183, R184): a transmission ends in a pause, so the line is low then. -/
theorem busyStep_enter {s : State} {p : Pos} (hidle : p ≠ .idle) :
    { s.enter p with timer := 1 }.busyStep = s.proceed p.next := by
  obtain ⟨hrun, -⟩ | ⟨-, q, hnext, h⟩ | ⟨-, hend, h⟩ := { s.enter p with timer := 1 }.busyStep_cases
  · exact absurd hrun (BitVec.lt_irrefl 1)
  · rw [h, show p.next = some q from hnext]
    rfl
  · have hlow : (seg s.k s.channel s.msg p).level = .low :=
      seg_level_of_isPause (Pos.isPause_of_next_eq_none hidle hend) ..
    rw [h, show p.next = none from hend]
    simp only [State.proceed, ← hlow]
    rfl

/-- A host that asserts no reset for a while asserts none for a shorter while. -/
theorem State.NoReset.mono {s : State} {m n : Nat} (h : s.NoReset n) (hmn : m ≤ n) : s.NoReset m :=
  fun inp hinp => h inp (List.take_subset_take_left _ hmn hinp)

/-- Nor in the second part of a while. -/
theorem State.NoReset.skip {s : State} {m n : Nat} (h : s.NoReset (m + n)) : (s.skip m).NoReset n := by
  intro inp hinp
  refine h inp ?_
  rw [List.take_add]
  exact List.mem_append_right _ hinp

/-- One busy step. -/
theorem BusyRun.one {s : State} (hk : s.k.wf = true) (hbusy : s.pos ≠ .idle) (hn : s.NoReset 1) :
    BusyRun 1 s s.takeInput.busyStep [s.out] := by
  have hstep := step_of_busy hk (State.noReset_portInput hn) hbusy
  refine ⟨runFor_succ 0 hstep, fun m hm => ?_, by simp only [State.observe, hstep, State.irOut]⟩
  obtain rfl : m = 0 := by omega
  exact ⟨s, rfl, s.busy_iff.2 hbusy⟩

/-- Steps that do not exhaust the timer. -/
theorem BusyRun.countdown {s : State} {n : Nat} (hk : s.k.wf = true) (hbusy : s.pos ≠ .idle) (hn : s.NoReset n)
    (ht : n < s.timer.toNat) :
    BusyRun n s { s.skip n with timer := s.timer - BitVec.ofNat 16 n } (List.replicate n s.out) := by
  obtain ⟨hrun, hline⟩ := runFor_countdown n hk hbusy hn ht
  refine ⟨hrun, fun m hm => ?_, hline⟩
  obtain ⟨hrun', -⟩ := runFor_countdown m hk hbusy (hn.mono hm.le) (hm.trans ht)
  exact ⟨_, hrun', (State.busy_iff _).2 hbusy⟩

/-- A segment plays for exactly its ticks and then gives way to its successor (R183). -/
theorem BusyRun.segment {s : State} {p : Pos} (hk : s.k.wf = true) (hp : p.Lasts s.channel) {d : Nat}
    (hd : (seg s.k s.channel s.msg p).ticks = d) (hn : s.NoReset d) :
    BusyRun d (s.enter p) ((s.skip d).proceed p.next) (List.replicate d (seg s.k s.channel s.msg p).level) := by
  obtain ⟨hidle, hgap⟩ := hp
  obtain ⟨hpos, htimer⟩ := segmentsFitTheTimer s p hk hidle hgap
  obtain ⟨n, rfl⟩ : ∃ n, d = n + 1 := ⟨d - 1, by omega⟩
  rw [hd] at htimer
  have hcount : BusyRun n (s.enter p) _ _ := .countdown hk hidle (hn.mono n.le_succ) (by omega)
  have hlast : BusyRun 1 { (s.enter p).skip n with timer := (s.enter p).timer - BitVec.ofNat 16 n } _ _ :=
    .one hk hidle hn.skip
  have hone : (s.enter p).timer - BitVec.ofNat 16 n = 1 := by
    bv_omega
  have hend : { (s.enter p).skip n with timer := (s.enter p).timer - BitVec.ofNat 16 n }.takeInput.busyStep =
      (s.skip (n + 1)).proceed p.next := by
    rw [hone, ← busyStep_enter hidle]
    simp only [State.skip, State.takeInput, List.tail_drop, State.enter]
  rw [List.replicate_succ', ← hend]
  exact hcount.append hlast

/-! ## A path of positions -/

/-- The positions `ps` in a row, from `o` to `o'`, each the successor of the one before; `none` is END (R179). -/
def Leads : List Pos → Option Pos → Option Pos → Prop
  | [], o, o' => o = o'
  | p :: ps, o, o' => o = some p ∧ Leads ps p.next o'

theorem Leads.append {ps qs : List Pos} {o o' o'' : Option Pos} (h : Leads ps o o') (h' : Leads qs o' o'') :
    Leads (ps ++ qs) o o'' := by
  induction ps generalizing o with
  | nil =>
    cases h
    exact h'
  | cons p ps ih => exact ⟨h.1, ih h.2⟩

/-- Paths that link up, one for each entry of a list. -/
theorem Leads.flatMap {α : Type} {f : α → List Pos} {a b : α → Option Pos} (h : ∀ x, Leads (f x) (a x) (b x))
    (l : List α) (x : α) (hl : (x :: l).IsChain (b · = a ·)) :
    Leads ((x :: l).flatMap f) (a x) (b ((x :: l).getLast (List.cons_ne_nil x l))) := by
  induction l generalizing x with
  | nil => simpa using h x
  | cons y l ih =>
    obtain ⟨hxy, hl⟩ := List.isChain_cons_cons.1 hl
    rw [List.flatMap_cons, List.getLast_cons (List.cons_ne_nil y l)]
    exact (h x).append (hxy ▸ ih y hl)

theorem leads_singleton (p : Pos) : Leads [p] (some p) p.next :=
  ⟨rfl, rfl⟩

/-- The twelve half-cycles of a burst, and the position it leads to. -/
theorem leads_burst {b : Fin 12 → Pos} {q : Pos}
    (h : ∀ i, (b i).next = some (if i.val < 11 then b (i + 1) else q)) :
    Leads (halves.map b) (some (b 0)) (some q) := by
  simp [Leads, halves, h]

/-- The positions of one data bit: a burst and a pause. -/
def dataBitOrder (r : Fin 5) (b : Fin 16) : List Pos :=
  halves.map (.dataBurst r b) ++ [.dataPause r b]

theorem leads_dataBit (r : Fin 5) (b : Fin 16) :
    Leads (dataBitOrder r b) (some (.dataBurst r b 0)) (Pos.dataPause r b).next :=
  (leads_burst fun _ => rfl).append (leads_singleton _)

/-- The sixteen data bits, from bit 15 to bit 0 and on to the stop burst. -/
theorem leads_dataBits (r : Fin 5) :
    Leads (bitOrder.flatMap (dataBitOrder r)) (some (.dataBurst r 15 0)) (some (.stopBurst r 0)) :=
  Leads.flatMap (leads_dataBit r) _ 15 (by simp [Pos.next])

/-- The positions of one repetition, as the loop of `send` orders them (R160). -/
def repetitionOrder (channel : Channel) (r : Fin 5) : List Pos :=
  (if gapUs r channel = 0 then [] else [.gap r]) ++ halves.map (.startBurst r) ++ [.startPause r] ++
    bitOrder.flatMap (dataBitOrder r) ++ halves.map (.stopBurst r) ++ [.stopPause r]

theorem sendOrder_eq_flatMap (c : Channel) : sendOrder c = repetitions.flatMap (repetitionOrder c) := rfl

/-- A repetition begins with its gap, or with the start burst where the gap is skipped. -/
def repetitionStart (channel : Channel) (r : Fin 5) : Pos :=
  if gapUs r channel = 0 then .startBurst r 0 else .gap r

theorem leads_repetition (c : Channel) (r : Fin 5) :
    Leads (repetitionOrder c r) (some (repetitionStart c r)) (Pos.stopPause r).next := by
  have hgap : Leads (if gapUs r c = 0 then [] else [.gap r]) (some (repetitionStart c r))
      (some (.startBurst r 0)) := by
    unfold repetitionStart
    split <;> simp [Leads, Pos.next]
  have hstart : Leads (halves.map (.startBurst r)) _ (some (.startPause r)) := leads_burst fun _ => rfl
  have hstop : Leads (halves.map (.stopBurst r)) _ (some (.stopPause r)) := leads_burst fun _ => rfl
  exact ((((hgap.append hstart).append (leads_singleton _)).append (leads_dataBits r)).append hstop).append
    (leads_singleton _)

/-- From its first position the sequencer goes through the positions of the loop of `send` and ends (R160, R179). -/
theorem leads_sendOrder (c : Channel) : Leads (sendOrder c) (some (firstPos c)) none := by
  rw [sendOrder_eq_flatMap]
  refine Leads.flatMap (leads_repetition c) _ 0 ?_
  revert c; decide

/-- The block plays a path segment by segment. -/
theorem BusyRun.path {s : State} {ps : List Pos} {o o' : Option Pos} (h : Leads ps o o') (hk : s.k.wf = true)
    (ho : ∀ p ∈ o, p.Lasts s.channel) {w : List Segment} (hw : ps.map (seg s.k s.channel s.msg) = w)
    (hn : s.NoReset (totalTicks w)) :
    BusyRun (totalTicks w) (s.proceed o) ((s.skip (totalTicks w)).proceed o') (samples w) := by
  subst hw
  induction ps generalizing s o with
  | nil =>
    cases h
    exact .nil _
  | cons p ps ih =>
    obtain ⟨rfl, h⟩ := h
    have hsplit : totalTicks ((p :: ps).map (seg s.k s.channel s.msg)) =
        (seg s.k s.channel s.msg p).ticks + totalTicks (ps.map (seg s.k s.channel s.msg)) := by
      simp [totalTicks]
    rw [hsplit] at hn ⊢
    have hfirst := BusyRun.segment hk (ho p rfl) rfl (hn.mono (Nat.le_add_right _ _))
    have hrest := ih (s := s.skip (seg s.k s.channel s.msg p).ticks) h hk (fun q hq => .of_next hq _) hn.skip
    rw [State.skip_skip] at hrest
    exact hfirst.append hrest

/-! ## A transmission -/

theorem totalTicks_flatMap {α : Type} (l : List α) (f : α → List Segment) :
    totalTicks (l.flatMap f) = (l.map fun x => totalTicks (f x)).sum := by
  induction l with
  | nil => rfl
  | cons x l ih => rw [List.flatMap_cons, totalTicks_append, ih, List.map_cons, List.sum_cons]

/-- A burst lasts twelve half-cycles. -/
theorem totalTicks_burst {k : Config} {c : Channel} {m : Message} {b : Fin 12 → Pos}
    (h : ∀ i, (seg k c m (b i)).ticks = tHalf k) : totalTicks ((halves.map b).map (seg k c m)) = 12 * tHalf k := by
  simp [totalTicks, halves, h]
  ring

/-- The pauses of a list of bits, by the number of 1 bits (R176). -/
theorem sum_dataPauseUs {α : Type} (k : Config) (l : List α) (f : α → Bool) :
    (l.map fun x => dataPauseUs k (f x)).sum =
      (l.filter f).length * k.highPause + (l.length - (l.filter f).length) * k.lowPause := by
  induction l with
  | nil => simp
  | cons x l ih =>
    have hle := List.length_filter_le f l
    rw [List.map_cons, List.sum_cons, ih]
    cases hx : f x with
    | false =>
      rw [List.filter_cons_of_neg (by simp [hx]), List.length_cons, Nat.sub_add_comm hle, dataPauseUs]
      simp only [Bool.false_eq_true, if_false]
      ring
    | true =>
      rw [List.filter_cons_of_pos hx, List.length_cons, List.length_cons, Nat.add_sub_add_right, dataPauseUs]
      simp only [if_true]
      ring

/-- The data bits of a repetition: sixteen bursts and their pauses. -/
theorem totalTicks_dataBits (k : Config) (c : Channel) (m : Message) (r : Fin 5) :
    totalTicks ((bitOrder.flatMap (dataBitOrder r)).map (seg k c m)) =
      16 * (12 * tHalf k) + (ones m * k.highPause + (16 - ones m) * k.lowPause) := by
  have hbit (b : Fin 16) :
      totalTicks ((dataBitOrder r b).map (seg k c m)) = 12 * tHalf k + dataPauseUs k (m.getLsbD b.val) := by
    rw [dataBitOrder, List.map_append, totalTicks_append, totalTicks_burst fun _ => rfl]
    rfl
  rw [List.map_flatMap, totalTicks_flatMap]
  simp only [hbit, List.sum_map_add, sum_dataPauseUs, List.map_const', List.sum_replicate]
  rfl

/-- A repetition lasts its gap and the ticks R176 gives it. -/
theorem totalTicks_repetition (k : Config) (c : Channel) (m : Message) (r : Fin 5) :
    totalTicks ((repetitionOrder c r).map (seg k c m)) = gapUs r c + repetitionTicks k m := by
  have hgap : totalTicks (((if gapUs r c = 0 then [] else [.gap r]) : List Pos).map (seg k c m)) = gapUs r c := by
    split
    · simp [totalTicks, *]
    · simp [totalTicks, seg]
  have hpause (p : Pos) (h : (seg k c m p).ticks = k.startStopPause) :
      totalTicks ([p].map (seg k c m)) = k.startStopPause := by
    simp [totalTicks, h]
  simp only [repetitionOrder, List.map_append, totalTicks_append]
  rw [hgap, hpause _ rfl, hpause _ rfl, totalTicks_dataBits, totalTicks_burst fun _ => rfl,
    totalTicks_burst fun _ => rfl, repetitionTicks]
  omega

/-- The positions of a transmission last `T` ticks together (R176). -/
theorem totalTicks_sendOrder (k : Config) (c : Channel) (m : Message) :
    totalTicks ((sendOrder c).map (seg k c m)) = sendTicks k c m := by
  have hgaps : (repetitions.map (gapUs · c)).sum = 77 * (29 + 3 * c.toNat) := by
    revert c; decide
  rw [sendOrder_eq_flatMap, List.map_flatMap, totalTicks_flatMap]
  simp only [totalTicks_repetition, List.sum_map_add, hgaps, List.map_const', List.sum_replicate]
  rfl

/-- From its first position a transmission plays the segments of `sendOrder`, for `T` ticks, and ends (R185, R186). -/
theorem BusyRun.transmission {s : State} {T : Nat} (hk : s.k.wf = true) (hT : sendTicks s.k s.channel s.msg = T)
    (hn : s.NoReset T) :
    BusyRun T (s.enter (firstPos s.channel)) { s.skip T with out := .low }.finish
      (samples ((sendOrder s.channel).map (seg s.k s.channel s.msg))) := by
  obtain rfl : totalTicks ((sendOrder s.channel).map (seg s.k s.channel s.msg)) = T :=
    (totalTicks_sendOrder ..).trans hT
  refine BusyRun.path (leads_sendOrder s.channel) hk ?_ rfl hn
  rintro p ⟨⟩
  exact Pos.Lasts.firstPos s.channel

end Sys2Proof.Machine
end

section
/-! The proofs of the family `20_memory`: a sequence of commands run tick by tick is the fold of the command rules
(spec/20_memory.md R61, R246); the order of the bits of a message (R58); the line between commands (R55). -/

namespace Sys2Proof.Machine

/-! ## One command -/

/-- A word on the port of an idle block is accepted (R181 case 3). -/
theorem step_of_offer {s : State} {w : CmdWord} {i : Instr} {rest : List PortInput} (hk : s.k.wf = true)
    (hidle : s.pos = .idle) (hhost : s.host = .offer w :: rest) (hdec : decode w = .ok i) :
    step s = exec i { s with host := rest } := by
  have hport : s.portInput = .offer w := by simp [State.portInput, hhost]
  have htake : s.takeInput = { s with host := rest } := by simp [State.takeInput, hhost]
  simp [step, State.tick, hk, hport, htake, State.stepWith, State.busy, State.cmdReady, hidle, State.accept, hdec,
    PortInput.offer]

/-- Only INIT configures. -/
theorem eq_init_of_effectOf {k : Config} {ch : Channel} {toggle : Bool} {i : Instr} {p : PinId} {c : Channel}
    (h : effectOf k ch toggle i = .configure p c) : i = .init p c := by
  cases i with
  | init => cases h; rfl
  | _ => cases h

/-- A command that transmits a frame at the command level transmits it at the tick level. -/
theorem exec_of_effectOf {i : Instr} {s : State} {f : Frame}
    (h : effectOf s.k s.channel s.toggle i = .transmit f) : exec i s = s.transmit f := by
  cases i with
  | init => cases h
  | _ => cases h; rfl

/-- A transmit command on the port of an idle block is the transmission of its frame. -/
theorem step_of_offer_transmit {s : State} {w : CmdWord} {i : Instr} {f : Frame} {rest : List PortInput}
    (hk : s.k.wf = true) (hidle : s.pos = .idle) (hhost : s.host = .offer w :: rest) (hdec : decode w = .ok i)
    (he : effectOf s.k s.channel s.toggle i = .transmit f) : step s = { s with host := rest }.transmit f :=
  (step_of_offer hk hidle hhost hdec).trans (exec_of_effectOf (s := { s with host := rest }) he)

/-- A transmission at the command level is carried out exactly when `cfg_valid` is 1, as at the tick level. -/
theorem commandSend_next_iff {k : Config} {r r' : Regs} {f : Frame} {tr : List Action} :
    commandSend k r f = .next (r', tr) ↔ r.cfgValid = true ∧
      r' = { r with toggle := r.toggle ^^ f.toggles, out := .low } ∧ tr = sendTrace k r.pin r.channel f.message := by
  unfold commandSend
  split <;> simp [*, eq_comm]

/-- The one way it stops (R203). -/
theorem commandSend_fault_iff {k : Config} {r : Regs} {f : Frame} {e : Fault} :
    commandSend k r f = .fault e ↔ r.cfgValid = false ∧ e = .useBeforeInit := by
  unfold commandSend
  split <;> simp [*, eq_comm]

/-- No command is refused at the command level. -/
theorem command_not_refused (k : Config) (i : Instr) (r : Regs) (e : Refusal) : command k i r ≠ .refused e := by
  unfold command commandSend
  split
  · simp
  · split <;> simp

/-- The script of a list whose first command is an INIT. -/
theorem script_init {w : CmdWord} {p : PinId} {c : Channel} (hw : encode (.init p c) = some w) (k : Config)
    (is : List Instr) (r : Regs) :
    script k (.init p c :: is) r = .offer w :: script k is (commandInit p c).1 := by
  simp [script, hw, command, effectOf]

/-- The script of a list whose first command transmits in an initialised block. -/
theorem script_transmit {k : Config} {i : Instr} {w : CmdWord} {f : Frame} {r r' : Regs} {tr : List Action}
    (hw : encode i = some w) (he : effectOf k r.channel r.toggle i = .transmit f)
    (hc : command k i r = .next (r', tr)) (is : List Instr) :
    script k (i :: is) r =
      .offer w :: (List.replicate (sendTicks k r.channel f.message) .wait ++ script k is r') := by
  simp [script, hw, he, hc]

/-- The script of a list whose first command faults ends with that command. -/
theorem script_fault {k : Config} {i : Instr} {w : CmdWord} {r : Regs} {e : Fault} (hw : encode i = some w)
    (hc : command k i r = .fault e) (is : List Instr) : script k (i :: is) r = [.offer w] := by
  simp [script, hw, hc]

/-- `n` steps, each using up one input, lead from `s` to `u`, which is idle again with the registers `r` and has the
inputs `host` still to come. -/
structure Completes (n : Nat) (s u : State) (r : Regs) (host : List PortInput) : Prop where
  run : runFor n s = .next u
  idle : u.pos = .idle
  regs : u.regs = r
  config : u.k = s.k
  left : u.host = host
  length : s.host.length = n + u.host.length

theorem init_completes {s : State} {p : PinId} {c : Channel} {w : CmdWord} {host : List PortInput}
    (hk : s.k.wf = true) (hidle : s.pos = .idle) (hdec : decode w = .ok (.init p c))
    (hhost : s.host = .offer w :: host) : ∃ n u, Completes n s u (commandInit p c).1 host := by
  have hstep := step_of_offer hk hidle hhost hdec
  refine ⟨1, _, runFor_succ 0 hstep, hidle, rfl, rfl, rfl, ?_⟩
  rw [hhost, List.length_cons, Nat.add_comm]
  rfl

/-- The block as it accepts a frame (R182), with the inputs `host` to come and the first segment not entered yet. -/
def State.loaded (s : State) (f : Frame) (host : List PortInput) : State :=
  { s with host := host, msg := f.message, togPending := f.toggles }

/-- The acceptance step and the `T` ticks of the transmission (R185, R246). -/
theorem transmit_completes {s : State} {i : Instr} {f : Frame} {w : CmdWord} {host : List PortInput}
    (hk : s.k.wf = true) (hidle : s.pos = .idle) (hcfg : s.cfgValid = true) (hdec : decode w = .ok i)
    (he : effectOf s.k s.channel s.toggle i = .transmit f)
    (hhost : s.host = .offer w :: (List.replicate (sendTicks s.k s.channel f.message) .wait ++ host)) :
    ∃ n u, Completes n s u { s.regs with toggle := s.toggle ^^ f.toggles, out := .low } host := by
  generalize hT : sendTicks s.k s.channel f.message = T at hhost
  have hstep : step s = .next ((s.loaded f (List.replicate T .wait ++ host)).enter (firstPos s.channel)) :=
    (step_of_offer_transmit hk hidle hhost hdec he).trans (State.transmit_next_iff.2 ⟨hcfg, rfl⟩)
  have hwait : (s.loaded f (List.replicate T .wait ++ host)).NoReset T := by
    intro inp hinp
    have hmem : inp ∈ List.replicate T .wait := by
      simpa [State.loaded, List.take_left' List.length_replicate] using hinp
    rw [List.eq_of_mem_replicate hmem]
    rfl
  have hrun := (BusyRun.transmission (s := s.loaded f (List.replicate T .wait ++ host)) hk hT hwait).run
  have hleft : (List.replicate T PortInput.wait ++ host).drop T = host := List.drop_left' List.length_replicate
  refine ⟨T + 1, _, (runFor_succ T hstep).trans hrun, rfl, rfl, rfl, hleft, ?_⟩
  simp only [State.finish_host, State.skip, State.loaded, hhost, hleft, List.length_cons, List.length_append,
    List.length_replicate]
  omega

/-- A command that goes through at the command level is carried out at the tick level, and the script goes on. -/
theorem command_completes {s : State} {i : Instr} {is : List Instr} {r : Regs} {tr : List Action}
    (hk : s.k.wf = true) (hidle : s.pos = .idle) (hi : i.wf = true) (hc : command s.k i s.regs = .next (r, tr))
    (hhost : s.host = script s.k (i :: is) s.regs) : ∃ n u, Completes n s u r (script s.k is r) := by
  obtain ⟨w, hw, hdec⟩ := exists_word_of_wf hi
  cases he : effectOf s.k s.regs.channel s.regs.toggle i with
  | configure p c =>
    obtain rfl := eq_init_of_effectOf he
    cases hc
    exact init_completes hk hidle hdec (hhost.trans (script_init hw ..))
  | transmit f =>
    rw [script_transmit hw he hc] at hhost
    obtain ⟨hcfg, rfl, -⟩ := commandSend_next_iff.1 ((command_of_transmit he).symm.trans hc)
    exact transmit_completes hk hidle hcfg hdec he hhost

/-- A command that faults at the command level faults at the tick level (R203). -/
theorem command_faults {s : State} {i : Instr} {is : List Instr} {e : Fault} (hk : s.k.wf = true)
    (hidle : s.pos = .idle) (hi : i.wf = true) (hc : command s.k i s.regs = .fault e)
    (hhost : s.host = script s.k (i :: is) s.regs) : runFor s.host.length s = .fault e := by
  obtain ⟨w, hw, hdec⟩ := exists_word_of_wf hi
  rw [script_fault hw hc] at hhost
  cases he : effectOf s.k s.regs.channel s.regs.toggle i with
  | configure p c => simp [command, he] at hc
  | transmit f =>
    have hfault := commandSend_fault_iff.1 ((command_of_transmit he).symm.trans hc)
    have hstep : step s = .fault e :=
      (step_of_offer_transmit hk hidle hhost hdec he).trans (State.transmit_fault_iff.2 hfault)
    simp [hhost, runFor, hstep]

/-! ## A sequence of commands -/

/-- A run ends as the fold of the command rules does: with its registers, idle and with no inputs left, or with its
fault. -/
inductive EndsAs : Host.Outcome State Fault Refusal → Host.Outcome (Regs × List Action) Fault Refusal → Prop
  | next {u : State} (tr : List Action) (hidle : u.pos = .idle) (hhost : u.host = []) :
      EndsAs (.next u) (.next (u.regs, tr))
  | fault (e : Fault) : EndsAs (.fault e) (.fault e)

/-- The trace of a command put before it does not change how a sequence ends. -/
theorem EndsAs.commands_cons {o : Host.Outcome State Fault Refusal} {k : Config} {i : Instr} {is : List Instr}
    {r r' : Regs} {tr : List Action} (hc : command k i r = .next (r', tr)) (h : EndsAs o (commands k is r')) :
    EndsAs o (commands k (i :: is) r) := by
  simp only [commands, hc]
  generalize commands k is r' = o' at h
  cases h with
  | next tr' hidle hhost => exact .next _ hidle hhost
  | fault e => exact .fault e

/-- The script of a sequence, run tick by tick from an idle block, ends as the fold (R61, R246). -/
theorem runFor_script_endsAs (is : List Instr) {s : State} (hk : s.k.wf = true) (hidle : s.pos = .idle)
    (his : ∀ i ∈ is, i.wf = true) (hhost : s.host = script s.k is s.regs) :
    EndsAs (runFor s.host.length s) (commands s.k is s.regs) := by
  induction is generalizing s with
  | nil =>
    rw [hhost]
    exact .next [] hidle hhost
  | cons i is ih =>
    have hi := his i List.mem_cons_self
    match hc : command s.k i s.regs with
    | .next (r, tr) =>
      obtain ⟨n, u, hu⟩ := command_completes hk hidle hi hc hhost
      obtain ⟨hrun, hidle', rfl, hconfig, hleft, hlength⟩ := hu
      rw [← hconfig] at hk hleft
      have hrest := ih hk hidle' (fun j hj => his j (List.mem_cons_of_mem i hj)) hleft
      rw [hlength, runFor_add n _ hrun]
      exact .commands_cons hc (hconfig ▸ hrest)
    | .fault e =>
      rw [command_faults hk hidle hi hc hhost]
      simp only [commands, hc]
      exact .fault e
    | .refused e => exact absurd hc (command_not_refused s.k i s.regs e)

/-- Settles O52, by the run of the script. -/
theorem sequenceOfCommandsIsTheFold : Obligations.SequenceOfCommandsIsTheFold := by
  intro is s r tr hk hidle his hcommands hhost
  have h := runFor_script_endsAs is hk hidle his hhost
  rw [hcommands] at h
  generalize runFor s.host.length s = o at h
  cases h with
  | next tr hidle' hhost' => exact ⟨_, rfl, hidle', rfl, hhost'⟩

/-- Settles O53, by the run of the script. -/
theorem sequenceFaultsAsTheFold : Obligations.SequenceFaultsAsTheFold := by
  intro is s e hk hidle his hcommands hhost
  have h := runFor_script_endsAs is hk hidle his hhost
  rw [hcommands] at h
  generalize runFor s.host.length s = o at h
  cases h with
  | fault => rfl

/-! ## The bits of a message, and the line between commands -/

/-- A bit of a message is a bit of the nibble it falls in (R142). -/
theorem getLsbD_assemble (n1 n2 n3 : Nibble) (i : Nat) :
    (assemble n1 n2 n3).getLsbD i =
      if i < 4 then (checksum n1 n2 n3).getLsbD i
      else if i - 4 < 4 then n3.getLsbD (i - 4)
      else if i - 4 - 4 < 4 then n2.getLsbD (i - 4 - 4)
      else n1.getLsbD (i - 4 - 4 - 4) := by
  rw [assemble_eq_append, BitVec.getLsbD_append, BitVec.getLsbD_append, BitVec.getLsbD_append]

/-- Settles O29, bit by bit. -/
theorem bitsGoOutInNibbleOrder : Obligations.BitsGoOutInNibbleOrder := by
  intro n1 n2 n3
  simp [bitOrder, nibbleBits, getLsbD_assemble, -BitVec.getLsbD_eq_getElem]

/-- Settles O39: a quiet block is low, and an initialised one drives the line. -/
theorem idleLineIsLow : Obligations.IdleLineIsLow := by
  intro s hs hidle hcfg
  obtain ⟨-, hlow⟩ := hs.idle_quiet hidle
  have hoe : s.oe = true := hs.oe_configured.trans hcfg
  simp [State.line, hoe, hlow]

end Sys2Proof.Machine
end

section
/-! The proofs of the family `30_encoding`, the command word: decoding and encoding are inverse to each other
(spec/30_encoding.md R85 to R87), so the reserved words are those that no command encodes to (R88). -/

namespace Sys2Proof

/-! ## A word and its fields -/

/-- The format `P`, put together again from its fields. -/
theorem nibbleWord_of_fields {w : CmdWord} {op : Nibble} (hop : w.extractLsb' 12 4 = op)
    (hzero : w.extractLsb' 8 4 = 0#4) : op ++ 0#4 ++ w.extractLsb' 4 4 ++ w.extractLsb' 0 4 = w := by
  rw [← hop, ← hzero, BitVec.extractLsb'_append_extractLsb'_eq_extractLsb' (show 12 = 8 + 4 from rfl),
    BitVec.extractLsb'_append_extractLsb'_eq_extractLsb' (show 8 = 4 + 4 from rfl),
    BitVec.extractLsb'_append_extractLsb'_eq_extractLsb' (show 4 = 0 + 4 from rfl), BitVec.extractLsb'_eq_self]

/-- The format `S`, put together again from its fields. -/
theorem selWord_of_fields {w : CmdWord} {op : Nibble} (hop : w.extractLsb' 12 4 = op)
    (hzero : w.extractLsb' 8 4 = 0#4) (hlast : w.extractLsb' 0 4 = 0#4) :
    op ++ 0#4 ++ w.extractLsb' 4 4 ++ 0#4 = w := by
  have hw := nibbleWord_of_fields hop hzero
  rwa [hlast] at hw

/-- The format `I`, put together again from its fields. -/
theorem initWord_of_fields {w : CmdWord} (hop : w.extractLsb' 12 4 = 0x1#4) (hzero : w.extractLsb' 10 2 = 0#2) :
    0x1#4 ++ 0#2 ++ w.extractLsb' 8 2 ++ w.extractLsb' 0 8 = w := by
  rw [← hop, ← hzero, BitVec.extractLsb'_append_extractLsb'_eq_extractLsb' (show 12 = 10 + 2 from rfl),
    BitVec.extractLsb'_append_extractLsb'_eq_extractLsb' (show 10 = 8 + 2 from rfl),
    BitVec.extractLsb'_append_extractLsb'_eq_extractLsb' (show 8 = 0 + 8 from rfl), BitVec.extractLsb'_eq_self]

/-- The first nibble of a word of four. -/
theorem nibbles_first (a b c d : Nibble) : (a ++ b ++ c ++ d).extractLsb' 12 4 = a := by
  rw [BitVec.extractLsb'_append_eq_of_le (by decide), BitVec.extractLsb'_append_eq_of_le (by decide),
    BitVec.extractLsb'_append_eq_left]

/-- The second nibble of a word of four. -/
theorem nibbles_second (a b c d : Nibble) : (a ++ b ++ c ++ d).extractLsb' 8 4 = b := by
  rw [BitVec.extractLsb'_append_eq_of_le (by decide), BitVec.extractLsb'_append_eq_of_le (by decide),
    BitVec.extractLsb'_append_eq_right]

/-- The fields of the format `I` that a command does not choose: the opcode and the two zero bits. -/
theorem initWord_fixed (c : Channel) (p : PinId) :
    (0x1#4 ++ 0#2 ++ c ++ p).extractLsb' 12 4 = 0x1#4 ∧ (0x1#4 ++ 0#2 ++ c ++ p).extractLsb' 10 2 = 0#2 := by
  constructor <;>
    rw [BitVec.extractLsb'_append_eq_of_le (by decide), BitVec.extractLsb'_append_eq_of_le (by decide)] <;> rfl

/-! ## From a word to the command and back -/

/-- A field that a row's mask keeps whole is the row's own in every word it selects (R86). -/
theorem Row.field_of_covers {r : Row} {w : CmdWord} (h : r.covers w = true) {start len : Nat}
    (hmask : r.mask.extractLsb' start len = BitVec.allOnes len) :
    w.extractLsb' start len = r.pattern.extractLsb' start len := by
  rw [← beq_iff_eq.1 h, BitVec.extractLsb'_and, hmask, BitVec.and_allOnes]

/-- What a row reads from a word it selects encodes to that word: every bit is fixed by the row or is an operand's. -/
theorem encode_operands : ∀ r ∈ rows, ∀ w, r.covers w = true → encode (r.operands w) = some w := by
  simp only [rows, List.forall_mem_cons, List.not_mem_nil, false_imp_iff, implies_true, and_true]
  refine ⟨fun w h => ?init, fun w h => ?setPower, fun w h => ?inc, fun w h => ?dec, fun w h => ?combo⟩
  case init =>
    exact congrArg some (initWord_of_fields (Row.field_of_covers h (by decide)) (Row.field_of_covers h (by decide)))
  case setPower | combo =>
    exact congrArg some (nibbleWord_of_fields (Row.field_of_covers h (by decide)) (Row.field_of_covers h (by decide)))
  case inc | dec =>
    exact congrArg some (selWord_of_fields (Row.field_of_covers h (by decide)) (Row.field_of_covers h (by decide))
      (Row.field_of_covers h (by decide)))

/-- Only a row that selects the word decodes it. -/
theorem exists_row_of_decode {w : CmdWord} {i : Instr} (h : decode w = .ok i) :
    ∃ r ∈ rows, r.covers w = true ∧ r.operands w = i := by
  unfold decode at h
  split at h
  case h_1 r hfind =>
    cases h
    exact ⟨r, List.mem_of_find?_eq_some hfind, List.find?_some (p := fun r : Row => r.covers w) hfind, rfl⟩
  case h_2 => cases h

/-- Only the commands of the port encode to a word (R90). -/
theorem wf_of_encode {i : Instr} {w : CmdWord} (h : encode i = some w) : i.wf = true := by
  cases i with
  | setRed | setBlue => cases h
  | _ => rfl

/-- Decoding and encoding are inverse to each other (R85 to R87). -/
theorem decode_eq_ok_iff {w : CmdWord} {i : Instr} : decode w = .ok i ↔ encode i = some w := by
  constructor
  · intro h
    obtain ⟨r, hr, hcovers, rfl⟩ := exists_row_of_decode h
    exact encode_operands r hr w hcovers
  · intro h
    obtain ⟨v, hv, hdecode⟩ := exists_word_of_wf (wf_of_encode h)
    obtain rfl : v = w := Option.some_inj.1 (hv.symm.trans h)
    exact hdecode

/-- Settles O1: the word of each format is read back field by field. -/
theorem encodeThenDecode : Obligations.EncodeThenDecode :=
  fun _ => exists_word_of_wf

/-- Settles O2: each row's mask and operands cover all sixteen bits. -/
theorem decodeThenEncode : Obligations.DecodeThenEncode :=
  fun _ _ => decode_eq_ok_iff.1

/-- Settles O4: two rows that select one word would share its opcode. -/
theorem tableRowsAreDisjoint : Obligations.TableRowsAreDisjoint := by
  have hopcodes : (rows.map (·.pattern.extractLsb' 12 4)).Nodup := by decide
  refine (List.pairwise_map.1 hopcodes).imp_of_mem fun {r r'} hr hr' hne w h => Bool.eq_false_iff.2 fun h' => hne ?_
  exact (Row.opcode_of_covers hr h).symm.trans (Row.opcode_of_covers hr' h')

/-! ## Reserved words -/

open Machine (IsReserved)

/-- The word of a command is on no line of R88's list. -/
theorem not_isReserved_of_encode {i : Instr} {w : CmdWord} (h : encode i = some w) : ¬ IsReserved w := by
  cases i with
  | init p c =>
    obtain rfl := Option.some_inj.1 h
    obtain ⟨hop, hzero⟩ := initWord_fixed c p
    simp [IsReserved, hop, hzero, -BitVec.reduceAppend]
  | setPower | inc | dec | combo =>
    obtain rfl := Option.some_inj.1 h
    simp [IsReserved, nibbles_first, nibbles_second, nibbles_last, -BitVec.reduceAppend]
  | setRed | setBlue => cases h

/-- A word on no line of R88's list has an assigned opcode and zeros where its format wants them: it is the word of the
command its fields name. -/
theorem exists_encode_of_not_isReserved {w : CmdWord} (h : ¬ IsReserved w) : ∃ i, encode i = some w := by
  have hopcode : ∀ op : Nibble, ¬ (op = 0x0 ∨ 0x6 ≤ op) → op = 0x1 ∨ op = 0x2 ∨ op = 0x3 ∨ op = 0x4 ∨ op = 0x5 := by
    decide
  obtain hop | hop | hop | hop | hop := hopcode (w.extractLsb' 12 4) fun h' => h (or_assoc.1 (.inl h'))
  · have hzero : w.extractLsb' 10 2 = 0#2 := by simpa [IsReserved, hop] using h
    exact ⟨.init _ _, congrArg some (initWord_of_fields hop hzero)⟩
  · have hzero : w.extractLsb' 8 4 = 0#4 := by simpa [IsReserved, hop] using h
    exact ⟨.setPower _ _, congrArg some (nibbleWord_of_fields hop hzero)⟩
  · have hzeros : w.extractLsb' 8 4 = 0#4 ∧ w.extractLsb' 0 4 = 0#4 := by simpa [IsReserved, hop] using h
    exact ⟨.inc _, congrArg some (selWord_of_fields hop hzeros.1 hzeros.2)⟩
  · have hzeros : w.extractLsb' 8 4 = 0#4 ∧ w.extractLsb' 0 4 = 0#4 := by simpa [IsReserved, hop] using h
    exact ⟨.dec _, congrArg some (selWord_of_fields hop hzeros.1 hzeros.2)⟩
  · have hzero : w.extractLsb' 8 4 = 0#4 := by simpa [IsReserved, hop] using h
    exact ⟨.combo _ _, congrArg some (nibbleWord_of_fields hop hzero)⟩

/-- The decoder rejects exactly R88's list. -/
theorem decode_error_iff {w : CmdWord} : (∃ e, decode w = .error e) ↔ IsReserved w := by
  cases h : decode w with
  | ok i => simp [not_isReserved_of_encode (decode_eq_ok_iff.1 h)]
  | error e =>
    refine iff_of_true ⟨e, rfl⟩ (Classical.byContradiction fun hres => ?_)
    obtain ⟨i, hi⟩ := exists_encode_of_not_isReserved hres
    simp [decode_eq_ok_iff.2 hi] at h

end Sys2Proof

namespace Sys2Proof.Machine

/-- The step that accepts a word (R181 case 3). -/
theorem step_of_accepts {s : State} {w : CmdWord} (hk : s.k.wf = true) (h : s.Accepts w) :
    step s = s.takeInput.accept w := by
  obtain ⟨hrst, hidle, hvalid, rfl⟩ := h
  simp [step, State.tick, hk, State.stepWith, hrst, State.busy, State.cmdReady, hidle, hvalid]

/-- Settles O3: the check for a reserved word is the decoder's, before anything runs. -/
theorem reservedWordsAreRefused : Obligations.ReservedWordsAreRefused := by
  refine ⟨fun _ => decode_error_iff, fun s w hk hacc hres => ?_⟩
  obtain ⟨e, he⟩ := decode_error_iff.2 hres
  rw [step_of_accepts hk hacc, State.accept, he]

end Sys2Proof.Machine
end

section
/-! The proofs of the family `30_encoding`, the messages (spec/30_encoding.md R71 to R76): what the acceptance of a
transmit command leaves (spec/44_sequencer.md R182). -/

namespace Sys2Proof.Machine

/-- The first gap, skipped only on channel 3 (R162, R164). -/
theorem gapUs_zero (c : Channel) : gapUs 0 c = 77 * (3 - c.toNat) := by
  simp only [gapUs, gapUnits, Fin.val_zero, if_true]
  omega

/-- On channels 0 to 2 a transmission begins with its gap (R180). -/
theorem firstPos_of_ne {c : Channel} (h : c ≠ 3) : firstPos c = .gap 0 :=
  if_neg fun h0 => h ((gapUs_eq_zero_iff 0 c).1 h0).2

/-- On channel 3 it begins with the start burst (R164, R180). -/
theorem firstPos_three : firstPos 3 = .startBurst 0 0 :=
  if_pos ((gapUs_eq_zero_iff 0 3).2 ⟨rfl, rfl⟩)

/-- An initialised block sends every frame: its message goes out from the first segment on (R182). -/
theorem exists_sends_of_transmit {s : State} (hcfg : s.cfgValid = true) (f : Frame) :
    ∃ t, s.transmit f = .next t ∧ Sends s t f.nib1 f.nib2 f.nib3 f.toggles := by
  refine ⟨_, State.transmit_next_iff.2 ⟨hcfg, rfl⟩, assemble_eq_append .., rfl, fun hne => ?_, fun h3 => ?_, rfl⟩
  · have hfits : gapUs 0 s.channel < 2 ^ 16 := (gapUs_le 0 s.channel).trans_lt (by decide)
    rw [firstPos_of_ne hne]
    refine ⟨rfl, rfl, ?_⟩
    rw [← gapUs_zero, State.enter_timer, BitVec.toNat_ofNat]
    exact Nat.mod_eq_of_lt hfits
  · rw [h3, firstPos_three]
    exact ⟨rfl, rfl, rfl⟩

/-- Settles O18: SETPOWER sends its frame. -/
theorem setPowerCompletes : Obligations.SetPowerCompletes :=
  fun sel level s hcfg => exists_sends_of_transmit hcfg (setPowerFrame s.k s.channel s.toggle sel level)

/-- Settles O19: INC sends its frame. -/
theorem incCompletes : Obligations.IncCompletes :=
  fun sel s hcfg => exists_sends_of_transmit hcfg (incFrame s.k s.channel s.toggle sel)

/-- Settles O20: DEC sends its frame. -/
theorem decCompletes : Obligations.DecCompletes :=
  fun sel s hcfg => exists_sends_of_transmit hcfg (decFrame s.k s.channel s.toggle sel)

/-- Settles O21: COMBO sends its frame, which the toggle does not enter. -/
theorem comboCompletes : Obligations.ComboCompletes :=
  fun a b s hcfg => exists_sends_of_transmit hcfg (comboFrame s.k s.channel a b)

/-- Every command does what its expansion does (R90, R112, R113). -/
theorem exec_expand (i : Instr) (s : State) : exec (expand s.k i) s = exec i s := by
  cases i <;> rfl

/-- Settles O22: SETRED and SETBLUE do what their expansions do, and these are SETPOWERs. -/
theorem aliasesComplete : Obligations.AliasesComplete := by
  refine ⟨fun level s hcfg => ?red, fun level s hcfg => ?blue, fun _ => ⟨rfl, rfl⟩⟩
  case red =>
    obtain ⟨t, ht, hsends⟩ := setPowerCompletes s.k.redSel level s hcfg
    exact ⟨t, (exec_expand (.setRed level) s).symm.trans ht, ht, hsends⟩
  case blue =>
    obtain ⟨t, ht, hsends⟩ := setPowerCompletes s.k.blueSel level s hcfg
    exact ⟨t, (exec_expand (.setBlue level) s).symm.trans ht, ht, hsends⟩

end Sys2Proof.Machine
end

section
/-! The proofs of the family `40_init`, the INIT command (spec/40_init.md R101 to R104): the state it leaves, and the
message of the single output command after it. With them, the words of the spec's examples. -/

namespace Sys2Proof.Machine

/-- Settles O5: each word is the one its command encodes to. -/
theorem sampleWordsDecode : Obligations.SampleWordsDecode :=
  ⟨decode_eq_ok_iff.2 rfl, decode_eq_ok_iff.2 rfl, decode_eq_ok_iff.2 rfl, decode_eq_ok_iff.2 rfl,
    decode_eq_ok_iff.2 rfl, decode_eq_ok_iff.2 rfl, decode_eq_ok_iff.2 rfl, decode_eq_ok_iff.2 rfl,
    decode_eq_ok_iff.2 rfl, decode_eq_ok_iff.2 rfl, decode_eq_ok_iff.2 rfl⟩

/-- Settles O15: INIT writes its four registers, and its two actions drive the new pin low. -/
theorem initCompletes : Obligations.InitCompletes :=
  fun p c s => ⟨exec_init p c s, rfl⟩

/-- The commands that flip the toggle are those that send a frame of the common form (R110). -/
theorem effectOf_of_flips {i : Instr} (hi : i.flips = true) (k : Config) (ch : Channel) (toggle : Bool) :
    ∃ n2 n3, effectOf k ch toggle i = .transmit (singleFrame k ch toggle n2 n3) := by
  cases i with
  | init | combo => cases hi
  | setPower | inc | dec | setRed | setBlue => exact ⟨_, _, rfl⟩

/-- Every single output command completes in an initialised block, with the toggle and the channel in nib1 (R71, R110). -/
theorem exists_sends_of_flips {i : Instr} (hi : i.flips = true) {s : State} (hcfg : s.cfgValid = true) :
    ∃ t n2 n3, exec i s = .next t ∧ Sends s t (nib1Single s.k s.channel s.toggle) n2 n3 true := by
  obtain ⟨n2, n3, heffect⟩ := effectOf_of_flips hi s.k s.channel s.toggle
  obtain ⟨t, hsend, hsends⟩ := exists_sends_of_transmit hcfg (singleFrame s.k s.channel s.toggle n2 n3)
  exact ⟨t, n2, n3, (exec_of_effectOf heffect).trans hsend, hsends⟩

/-- The first nibble of the message on its way (R142). -/
theorem Sends.nib1 {s t : State} {n1 n2 n3 : Nibble} {flip : Bool} (h : Sends s t n1 n2 n3 flip) :
    t.msg.extractLsb' 12 4 = n1 := by
  rw [h.message, nibbles_first]

/-- With toggle 0, nib1 is the channel alone (R71). -/
theorem nib1Single_false (k : Config) (c : Channel) : nib1Single k c false = c.setWidth 4 :=
  BitVec.zero_or

/-- Settles O16: INIT leaves an initialised block with toggle 0 on its channel, and nib1 is made of these. -/
theorem messageAfterInitCarriesToggleZero : Obligations.MessageAfterInitCarriesToggleZero := by
  intro p c s t i hinit hflips
  obtain ⟨hcfg, hchannel, htoggle⟩ : t.cfgValid = true ∧ t.channel = c ∧ t.toggle = false := by
    rw [exec_init] at hinit
    cases hinit
    exact ⟨rfl, rfl, rfl⟩
  obtain ⟨u, n2, n3, hexec, hsends⟩ := exists_sends_of_flips hflips hcfg
  refine ⟨u, hexec, ?_⟩
  rw [hsends.nib1, hchannel, htoggle, nib1Single_false]

end Sys2Proof.Machine
end

section
/-! The proofs of the family `41_single_output` (spec/41_single_output.md): what the acceptance of a transmit command
leaves alone (R110), the message of a repeated command (R117), and the parity of the toggle after INIT (R116). -/

namespace Sys2Proof.Machine

/-- Settles O23: a transmit command that completes is an accepted transmission, which writes the message and the first
segment only (R182). -/
theorem transmitFrame : Obligations.TransmitFrame := by
  intro i s t hi h
  obtain ⟨p, c, rfl, -⟩ | ⟨f, -, -, -, -, rfl⟩ := exec_next_cases h
  · cases hi
  · exact ⟨rfl, rfl, rfl, rfl, rfl, rfl, rfl, rfl⟩

/-! ## The message of a repeated command -/

/-- A single output command has the same nib2 and nib3 for both values of the toggle (R71, R110). -/
theorem exists_nibbles_of_flips {i : Instr} (hi : i.flips = true) (k : Config) (ch : Channel) :
    ∃ n2 n3, ∀ toggle, effectOf k ch toggle i = .transmit (singleFrame k ch toggle n2 n3) := by
  cases i with
  | init | combo => cases hi
  | setPower | inc | dec | setRed | setBlue => exact ⟨_, _, fun _ => rfl⟩

/-- A transmit command that completes has loaded the message of its frame (R143, R182). -/
theorem msg_of_effectOf {i : Instr} {s t : State} {f : Frame}
    (he : effectOf s.k s.channel s.toggle i = .transmit f) (h : exec i s = .next t) : t.msg = f.message := by
  rw [exec_of_effectOf he, State.transmit_next_iff] at h
  obtain ⟨-, rfl⟩ := h
  rfl

/-- The XOR of two messages is taken nibble by nibble. -/
theorem nibbles_xor_nibbles (a b c d a' b' c' d' : Nibble) :
    (a ++ b ++ c ++ d) ^^^ (a' ++ b' ++ c' ++ d') = (a ^^^ a') ++ (b ^^^ b') ++ (c ^^^ c') ++ (d ^^^ d') := by
  rw [BitVec.xor_append, BitVec.xor_append, BitVec.xor_append]

/-- The checksum changes in the bits in which nib1 does (R140, R141). -/
theorem checksum_xor_checksum (n1 n1' n2 n3 : Nibble) : checksum n1 n2 n3 ^^^ checksum n1' n2 n3 = n1 ^^^ n1' := by
  calc checksum n1 n2 n3 ^^^ checksum n1' n2 n3
      = (n1 ^^^ n1') ^^^ (0xF ^^^ 0xF) ^^^ (n2 ^^^ n2) ^^^ (n3 ^^^ n3) := by unfold checksum; ac_rfl
    _ = n1 ^^^ n1' := by simp

/-- Messages that differ in nib1 only differ in the same bits of nib1 and of the checksum (R140, R142). -/
theorem assemble_xor_assemble (n1 n1' n2 n3 : Nibble) :
    assemble n1 n2 n3 ^^^ assemble n1' n2 n3 =
      ((n1 ^^^ n1').setWidth 16 <<< 12) ||| (n1 ^^^ n1').setWidth 16 := by
  have houter : ∀ d : Nibble, d ++ 0#4 ++ 0#4 ++ d = (d.setWidth 16 <<< 12) ||| d.setWidth 16 := by decide
  calc assemble n1 n2 n3 ^^^ assemble n1' n2 n3
      = (n1 ^^^ n1') ++ (n2 ^^^ n2) ++ (n3 ^^^ n3) ++ (checksum n1 n2 n3 ^^^ checksum n1' n2 n3) := by
        rw [assemble_eq_append, assemble_eq_append]
        exact nibbles_xor_nibbles ..
    _ = (n1 ^^^ n1') ++ 0#4 ++ 0#4 ++ (n1 ^^^ n1') := by rw [checksum_xor_checksum, BitVec.xor_self, BitVec.xor_self]
    _ = _ := houter (n1 ^^^ n1')

/-- The two nib1 of a channel differ in the toggle bit, which no channel bit covers (W1, R71). -/
theorem nib1Single_xor_not {k : Config} (hk : k.wf = true) (c : Channel) (toggle : Bool) :
    nib1Single k c toggle ^^^ nib1Single k c (!toggle) = k.toggleMask := by
  have hdisjoint : ∀ m : Nibble, m = 0x4 ∨ m = 0x8 → ∀ c : Channel,
      (m ||| c.setWidth 4) ^^^ (0x0 ||| c.setWidth 4) = m := by decide
  have hmask := hdisjoint k.toggleMask (Config.toggleMask_cases hk) c
  cases toggle with
  | false => exact (BitVec.xor_comm ..).trans hmask
  | true => exact hmask

/-- Settles O25: the toggle enters a single output message through nib1 alone, so the two messages differ in the two
toggle bits, and these are not empty. -/
theorem repeatedCommandsDifferInToggleBits : Obligations.RepeatedCommandsDifferInToggleBits := by
  intro i s t t' hk hi h h'
  obtain ⟨n2, n3, heffect⟩ := exists_nibbles_of_flips hi s.k s.channel
  have hxor : t.msg ^^^ t'.msg = (s.k.toggleMask.setWidth 16 <<< 12) ||| s.k.toggleMask.setWidth 16 := by
    rw [msg_of_effectOf (heffect s.toggle) h, msg_of_effectOf (heffect !s.toggle) h',
      ← nib1Single_xor_not hk s.channel s.toggle]
    exact assemble_xor_assemble ..
  refine ⟨hxor, fun heq => ?_⟩
  rw [heq, BitVec.xor_self] at hxor
  obtain hmask | hmask := Config.toggleMask_cases hk <;> rw [hmask] at hxor <;> exact absurd hxor (by decide)

/-! ## The parity of the toggle -/

/-- A transmit command in an initialised block completes at the command level; a single output command flips the toggle,
COMBO keeps it, and the line ends low (R110, R131). -/
theorem command_of_transmits {i : Instr} (hi : i.transmits = true) (k : Config) {r : Regs} (hcfg : r.cfgValid = true) :
    ∃ tr, command k i r = .next ({ r with toggle := r.toggle ^^ i.flips, out := .low }, tr) := by
  cases i with
  | init => cases hi
  | setPower | inc | dec | combo | setRed | setBlue => exact ⟨_, commandSend_next_iff.2 ⟨hcfg, rfl, rfl⟩⟩

/-- A sequence goes through when its first command does and the rest goes through from there (R61). -/
theorem commands_cons_next {k : Config} {i : Instr} {is : List Instr} {r r' r'' : Regs} {tr tr' : List Action}
    (hfirst : command k i r = .next (r', tr)) (hrest : commands k is r' = .next (r'', tr')) :
    commands k (i :: is) r = .next (r'', tr ++ tr') := by
  simp only [commands, hfirst, hrest]

/-- One more command in front changes the parity of the flips exactly when it flips. -/
theorem flips_parity_cons (i : Instr) (is : List Instr) :
    decide ((i :: is).countP (·.flips) % 2 = 1) = (i.flips ^^ decide (is.countP (·.flips) % 2 = 1)) := by
  cases h : i.flips with
  | false => simp [h]
  | true =>
    rw [List.countP_cons_of_pos (p := fun j : Instr => j.flips) h, Bool.true_xor, ← decide_not, decide_eq_decide]
    omega

/-- Transmit commands in an initialised block go through, keep channel and pin, and flip the toggle once for each single
output command among them (R110, R116, R131). -/
theorem commands_of_transmits (k : Config) (is : List Instr) {r : Regs} (his : ∀ i ∈ is, i.transmits = true)
    (hcfg : r.cfgValid = true) :
    ∃ r' tr, commands k is r = .next (r', tr) ∧
      r'.toggle = (r.toggle ^^ decide (is.countP (·.flips) % 2 = 1)) ∧ r'.channel = r.channel ∧ r'.pin = r.pin := by
  induction is generalizing r with
  | nil => exact ⟨r, [], rfl, (Bool.xor_false _).symm, rfl, rfl⟩
  | cons i is ih =>
    obtain ⟨hi, hrest⟩ := List.forall_mem_cons.1 his
    obtain ⟨tr, hfirst⟩ := command_of_transmits hi k hcfg
    obtain ⟨r', tr', hcommands, htoggle, hchannel, hpin⟩ :=
      ih (r := { r with toggle := r.toggle ^^ i.flips, out := .low }) hrest hcfg
    refine ⟨r', tr ++ tr', commands_cons_next hfirst hcommands, ?_, hchannel, hpin⟩
    rw [htoggle, flips_parity_cons, Bool.xor_assoc]

/-- Settles O49: INIT leaves an initialised block with toggle 0 (R101), and the commands after it flip from there. -/
theorem toggleParity : Obligations.ToggleParity := by
  intro k p c is r his
  obtain ⟨r', tr, hcommands, htoggle, hchannel, hpin⟩ :=
    commands_of_transmits k is (r := (commandInit p c).1) his rfl
  exact ⟨r', _, commands_cons_next rfl hcommands, htoggle.trans (Bool.false_xor _), hchannel, hpin⟩

end Sys2Proof.Machine
end

section
/-! The proofs of the family `43_framer` (spec/43_framer.md): the laws of the checksum and of the assembly (R140 to R142),
and that a message is computed afresh for every command (R143, R146). -/

namespace Sys2Proof.Machine

/-- Settles O27: the four nibbles read back, the last of them being the checksum. -/
theorem assembleIsConcatenation : Obligations.AssembleIsConcatenation :=
  fun n1 n2 n3 => ⟨assemble_eq_append n1 n2 n3, assemble_nibbles n1 n2 n3⟩

/-! ## The checksum -/

/-- Whatever is XORed into nib1 is XORed into the checksum (R140). -/
theorem checksum_xor_first (n1 n2 n3 x : Nibble) : checksum (n1 ^^^ x) n2 n3 = checksum n1 n2 n3 ^^^ x := by
  unfold checksum
  ac_rfl

/-- The checksum is the same with nib1 and nib2 exchanged (R141). -/
theorem checksum_swap_first (n1 n2 n3 : Nibble) : checksum n1 n2 n3 = checksum n2 n1 n3 := by
  unfold checksum
  ac_rfl

/-- The checksum is the same with nib2 and nib3 exchanged (R141). -/
theorem checksum_swap_last (n1 n2 n3 : Nibble) : checksum n1 n2 n3 = checksum n1 n3 n2 := by
  unfold checksum
  ac_rfl

/-- The same of nib2, by exchanging it with nib1. -/
theorem checksum_xor_second (n1 n2 n3 x : Nibble) : checksum n1 (n2 ^^^ x) n3 = checksum n1 n2 n3 ^^^ x := by
  rw [checksum_swap_first, checksum_xor_first, checksum_swap_first]

/-- The same of nib3, by exchanging it with nib2. -/
theorem checksum_xor_third (n1 n2 n3 x : Nibble) : checksum n1 n2 (n3 ^^^ x) = checksum n1 n2 n3 ^^^ x := by
  rw [checksum_swap_last, checksum_xor_second, checksum_swap_last]

/-- Settles O28: flipping bit `i` is the XOR with `2 ^ i`. -/
theorem checksumLaws : Obligations.ChecksumLaws :=
  fun n1 n2 n3 => ⟨nibbleXor_assemble n1 n2 n3,
    fun _ => ⟨checksum_xor_first n1 n2 n3 _, checksum_xor_second n1 n2 n3 _, checksum_xor_third n1 n2 n3 _⟩,
    checksum_swap_first n1 n2 n3, checksum_swap_last n1 n2 n3⟩

/-! ## The message of a command -/

/-- Settles O24: a transmit command that completes has loaded its frame, and the frame is a function of the operands,
the channel, the toggle and the configuration. -/
theorem messageIsFresh : Obligations.MessageIsFresh := by
  intro i s s' t t' hi hk hchannel htoggle h h'
  obtain ⟨f, heffect, hexec, -⟩ := exec_of_transmits s hi
  have hexec' : exec i s' = s'.transmit f := by
    rw [hk, hchannel, htoggle] at heffect
    exact exec_of_effectOf heffect
  obtain ⟨-, rfl⟩ := State.transmit_next_iff.1 (hexec.symm.trans h)
  obtain ⟨-, rfl⟩ := State.transmit_next_iff.1 (hexec'.symm.trans h')
  exact ⟨rfl, rfl⟩

end Sys2Proof.Machine
end

section
/-! The proofs of the family `44_sequencer`, one step (spec/44_sequencer.md R181 to R184): what an accepting, an idle
and a busy step do, and how long a segment stays on the line. -/

namespace Sys2Proof.Machine

/-! ## The idle block -/

/-- Settles O11: an accepting step runs what the decoder answers. -/
theorem stepRunsTheDecodedCommand : Obligations.StepRunsTheDecodedCommand := by
  intro s w i hk hacc hdec
  rw [step_of_accepts hk hacc, State.accept, hdec]
  rfl

/-- Settles O12: of R181's cases only the last one is left. -/
theorem idleStepChangesNothing : Obligations.IdleStepChangesNothing := by
  intro s hk hrst hidle hvalid
  have hready : s.takeInput.busy = false := by simp [State.busy, State.cmdReady, hidle]
  have hstep : step s = .next s.takeInput := by simp [step, State.tick, hk, State.stepWith, hrst, hready, hvalid]
  exact hstep

/-! ## The busy step -/

/-- Settles O13: the busy step is a function of the state without this step's inputs. -/
theorem busyStepIgnoresThePort : Obligations.BusyStepIgnoresThePort := by
  intro s a b rest hk hbusy ha hb
  exact ⟨{ s with host := rest }.busyStep, step_of_busy (s := { s with host := a :: rest }) hk ha hbusy,
    step_of_busy (s := { s with host := b :: rest }) hk hb hbusy, State.busyStep_host _⟩

/-- Settles O33: above 1 the busy step takes its first branch (R183). -/
theorem busyStepCountsDown : Obligations.BusyStepCountsDown := by
  intro s hk hrst hbusy htimer
  have hbranch : s.takeInput.busyStep = { s.takeInput with timer := s.timer - 1 } := if_pos htimer
  refine ⟨_, (step_of_busy hk hrst hbusy).trans (congrArg _ hbranch), rfl, ?_⟩
  exact BitVec.toNat_sub_of_le (BitVec.le_of_lt htimer)

/-- The last tick of a segment with a successor enters it (R183). -/
theorem busyStep_of_next {s : State} {p : Pos} (htimer : s.timer = 1) (hnext : s.pos.next = some p) :
    s.busyStep = s.enter p := by
  simp [State.busyStep, htimer, hnext]

/-- The last tick of a segment without one ends the transmission (R183, R184). -/
theorem busyStep_of_end {s : State} (htimer : s.timer = 1) (hend : s.pos.next = none) : s.busyStep = s.finish := by
  simp [State.busyStep, htimer, hend]

/-- A position with a successor is not idle (R179). -/
theorem ne_idle_of_next {p q : Pos} (h : p.next = some q) : p ≠ .idle := by
  rintro rfl
  cases h

/-- Settles O34: the last tick enters the successor. -/
theorem lastTickEntersTheSuccessor : Obligations.LastTickEntersTheSuccessor := by
  intro s p hk hrst hnext htimer
  rw [step_of_busy hk hrst (ne_idle_of_next hnext), busyStep_of_next (s := s.takeInput) htimer hnext]
  rfl

/-- The flip of R147, written as a case distinction. -/
theorem xor_eq_ite (toggle flip : Bool) : (toggle ^^ flip) = if flip then !toggle else toggle := by
  cases flip with
  | false => exact Bool.xor_false _
  | true => exact Bool.xor_true _

/-- Settles O35: the stop pause of repetition 4 has no successor, so its last tick ends the transmission. -/
theorem endOfTransmission : Obligations.EndOfTransmission := by
  intro s hk hrst hpos htimer
  have hbusy : s.pos ≠ .idle := by simp [hpos]
  have hend : s.pos.next = none := by rw [hpos]; rfl
  have hstep : step s = .next s.takeInput.finish :=
    (step_of_busy hk hrst hbusy).trans (congrArg _ (busyStep_of_end (s := s.takeInput) htimer hend))
  exact ⟨_, hstep, rfl, rfl, rfl, xor_eq_ite .., rfl, rfl, rfl, rfl, rfl, rfl, rfl⟩

/-! ## The ticks of a segment -/

/-- Settles O36: all ticks but the last count down, and the last enters the successor. -/
theorem segmentLastsExactlyItsTicks : Obligations.SegmentLastsExactlyItsTicks := by
  rintro s p q hk rfl hnext hone hn
  have hbusy := ne_idle_of_next hnext
  refine ⟨fun n hlt => ?_, ?_⟩
  · obtain ⟨hrun, -⟩ := runFor_countdown n hk hbusy (hn.mono hlt.le) hlt
    exact ⟨_, hrun, rfl, rfl⟩
  · obtain ⟨n, hd⟩ : ∃ n, s.timer.toNat = n + 1 := ⟨s.timer.toNat - 1, by omega⟩
    rw [hd] at hn ⊢
    obtain ⟨hrun, -⟩ := runFor_countdown n hk hbusy (hn.mono n.le_succ) (by omega)
    have hlast : s.timer - BitVec.ofNat 16 n = 1 := by bv_omega
    have hrst : (s.skip n).portInput.rst = false := State.noReset_portInput (State.NoReset.skip hn)
    have hstep :=
      lastTickEntersTheSuccessor { s.skip n with timer := s.timer - BitVec.ofNat 16 n } q hk hrst hnext hlast
    exact ⟨_, (runFor_add n 1 hrun).trans (runFor_succ 0 hstep), rfl, rfl⟩

end Sys2Proof.Machine
end

section
/-! The proofs of the family `44_sequencer`, the two levels (spec/44_sequencer.md R160, R174, R175, R185, R186): the
waveform of the action trace of `send` is that of the sequencer's positions, so a transmission plays it. -/

namespace Sys2Proof.Machine

/-! ## The waveform of a held trace -/

/-- From a low line the trace `tr` has the waveform `w` and leaves the line low: what comes after it begins with a low
line again. -/
def Plays (tr : List Action) (w : List Segment) : Prop :=
  ∀ rest, waveform .low (tr ++ rest) = w ++ waveform .low rest

theorem Plays.waveform_eq {tr : List Action} {w : List Segment} (h : Plays tr w) : waveform .low tr = w := by
  simpa [waveform] using h []

theorem Plays.append {tr tr' : List Action} {w w' : List Segment} (h : Plays tr w) (h' : Plays tr' w') :
    Plays (tr ++ tr') (w ++ w') := fun rest => by
  rw [List.append_assoc, h, h', List.append_assoc]

theorem Plays.flatMap {α : Type} {tr : α → List Action} {w : α → List Segment} (h : ∀ x, Plays (tr x) (w x))
    (l : List α) : Plays (l.flatMap tr) (l.flatMap w) := by
  induction l with
  | nil => exact fun _ => rfl
  | cons x l ih => exact (h x).append ih

/-- A delay holds the level it finds (R174). -/
theorem plays_delay (d : Nat) : Plays [.delay d] [⟨.low, d⟩] :=
  fun _ => rfl

/-- The trace of a gap has the waveform of its position, and of none when it is skipped (R164). -/
theorem plays_gap (k : Config) (c : Channel) (m : Message) (r : Fin 5) :
    Plays (gapTrace c r) (((if gapUs r c = 0 then [] else [.gap r]) : List Pos).map (seg k c m)) := fun rest => by
  rw [waveform_gap]
  split <;> rfl

/-- The trace of a burst has the waveform of its twelve half-cycles, high first and low last (R29, R165). -/
theorem plays_burst {k : Config} {c : Channel} {m : Message} {b : Fin 12 → Pos}
    (h : ∀ i, seg k c m (b i) = ⟨halfLevel i, tHalf k⟩) (p : PinId) :
    Plays (burstTrace (heldConfig k) p) ((halves.map b).map (seg k c m)) := fun rest => by
  simp [burstTrace, List.replicate_succ, waveform_cycle, halves, h, halfLevel]

/-- The trace of a data bit has the waveform of its burst and its pause (R167). -/
theorem plays_dataBit (k : Config) (p : PinId) (c : Channel) (m : Message) (r : Fin 5) (b : Fin 16) :
    Plays (dataBitTrace (heldConfig k) p (m.getLsbD b.val)) ((dataBitOrder r b).map (seg k c m)) := by
  rw [dataBitOrder, List.map_append]
  exact (plays_burst (fun _ => rfl) p).append (plays_delay _)

/-- The trace of a start or stop bit has the waveform of its burst and its pause (R166, R169). -/
theorem plays_startStop {k : Config} {c : Channel} {m : Message} {b : Fin 12 → Pos} {q : Pos}
    (hb : ∀ i, seg k c m (b i) = ⟨halfLevel i, tHalf k⟩) (hq : seg k c m q = ⟨.low, k.startStopPause⟩) (p : PinId) :
    Plays (startStopTrace (heldConfig k) p) ((halves.map b ++ [q]).map (seg k c m)) := by
  rw [List.map_append, List.map_singleton, hq]
  exact (plays_burst hb p).append (plays_delay _)

/-- The trace of a repetition has the waveform of its positions (R160). -/
theorem plays_repetition (k : Config) (p : PinId) (c : Channel) (m : Message) (r : Fin 5) :
    Plays (gapTrace c r ++ messageTrace (heldConfig k) p m) ((repetitionOrder c r).map (seg k c m)) := by
  have hstart : Plays _ ((halves.map (Pos.startBurst r) ++ [Pos.startPause r]).map (seg k c m)) :=
    plays_startStop (fun _ => rfl) rfl p
  have hbits : Plays (bitOrder.flatMap fun b => dataBitTrace (heldConfig k) p (m.getLsbD b.val))
      ((bitOrder.flatMap (dataBitOrder r)).map (seg k c m)) := by
    rw [List.map_flatMap]
    exact .flatMap (plays_dataBit k p c m r) bitOrder
  have hstop : Plays _ ((halves.map (Pos.stopBurst r) ++ [Pos.stopPause r]).map (seg k c m)) :=
    plays_startStop (fun _ => rfl) rfl p
  simpa only [messageTrace, repetitionOrder, List.map_append, List.append_assoc] using
    (plays_gap k c m r).append ((hstart.append hbits).append hstop)

/-- The waveform of a held `send` is the segments of the sequencer's positions, one for one (R186). -/
theorem waveform_send (k : Config) (p : PinId) (c : Channel) (m : Message) :
    waveform .low (sendTrace (heldConfig k) p c m) = (sendOrder c).map (seg k c m) := by
  rw [sendOrder_eq_flatMap, List.map_flatMap]
  exact (Plays.flatMap (plays_repetition k p c m) repetitions).waveform_eq

/-! ## A transmission -/

/-- After an accepted transmit command the block is busy for `T` steps, plays the positions of `sendOrder` in them, and
ends with the pending flip done and the line low (R185). -/
theorem BusyRun.of_exec {i : Instr} {s t : State} (hk : s.k.wf = true) (hi : i.transmits = true)
    (h : exec i s = .next t) {T : Nat} (hT : sendTicks t.k t.channel t.msg = T) (hn : t.NoReset T) :
    ∃ u, BusyRun T t u (samples ((sendOrder s.channel).map (seg s.k s.channel t.msg))) ∧ u.pos = .idle ∧
      u.regs = { s.regs with toggle := s.toggle ^^ i.flips, out := .low } ∧ u.host = s.host.drop T := by
  obtain ⟨p, c, rfl, -⟩ | ⟨f, -, -, hflips, -, rfl⟩ := exec_next_cases h
  · cases hi
  · rw [← hflips]
    exact ⟨_, .transmission (s := { s with msg := f.message, togPending := f.toggles }) hk hT hn, rfl, rfl, rfl⟩

/-- Only an initialised block accepts a transmit command (R203). -/
theorem cfgValid_of_exec {i : Instr} {s t : State} (hi : i.transmits = true) (h : exec i s = .next t) :
    s.cfgValid = true := by
  obtain ⟨p, c, rfl, -⟩ | ⟨f, -, -, -, hcfg, -⟩ := exec_next_cases h
  · cases hi
  · exact hcfg

/-- Settles O50, by the run of a transmission. -/
theorem transmissionTakesT : Obligations.TransmissionTakesT := by
  intro i s t hk hi h hn
  obtain ⟨u, hrun, hidle, hregs, hhost⟩ := BusyRun.of_exec hk hi h rfl hn
  injection hregs with hchannel htoggle hpin hcfg hoe hout
  exact ⟨hrun.busy, u, hrun.run, decide_eq_true hidle, hout, htoggle.trans (xor_eq_ite ..), hchannel, hpin,
    hcfg.trans (cfgValid_of_exec hi h), hhost⟩

/-- Settles O51: the run of a transmission plays its positions, and these have the waveform of the held trace. -/
theorem transmissionPlaysItsTrace : Obligations.TransmissionPlaysItsTrace := by
  intro i s t hk hi h hn
  obtain ⟨u, hrun, hidle, hregs, -⟩ := BusyRun.of_exec hk hi h rfl hn
  obtain ⟨f, heffect, -, hflips⟩ := exec_of_transmits s hi
  have hcommand : command s.k i s.regs = .next (u.regs, sendTrace s.k s.pin s.channel t.msg) := by
    rw [command_of_transmit heffect, msg_of_effectOf heffect h, hregs, ← hflips]
    exact commandSend_next_iff.2 ⟨cfgValid_of_exec hi h, rfl, rfl⟩
  refine ⟨_, _, u, hcommand, hrun.run, hidle, rfl, ?_, fun hen => by rw [held_eq_self hen]⟩
  rw [waveform_send]
  exact hrun.line

end Sys2Proof.Machine
end

section
/-! The proofs of the family `44_sequencer`, `send` as a whole (spec/44_sequencer.md R160 to R163, R170, R174 to R177):
the gap schedule, the order of the positions, the shape of the trace, the merged form of a waveform and its durations. -/

namespace Sys2Proof.Machine

/-! ## The gap schedule and the order of the positions -/

/-- Settles O30: the table of R163 entry by entry; the sums in microseconds are those in units, 77 times. -/
theorem gapSchedule : Obligations.GapSchedule := by
  have hunits : ∀ c : Channel, (repetitions.map (gapUnits · c)).sum = 29 + 3 * c.toNat := by decide
  refine ⟨rfl, rfl, rfl, rfl, hunits, rfl, rfl, rfl, rfl, fun c => ?_, gapUs_le⟩
  rw [← hunits, ← List.sum_map_mul_left]
  rfl

/-- A path that ends is what `walk` finds, when it may go far enough (R179). -/
theorem walk_of_leads {ps : List Pos} {p : Pos} {n : Nat} (h : Leads ps (some p) none) (hn : ps.length ≤ n) :
    walk n p = ps := by
  induction ps generalizing p n with
  | nil => cases h
  | cons q ps ih =>
    obtain ⟨hpq, hrest⟩ := h
    obtain rfl := Option.some_inj.1 hpq
    cases n with
    | zero => exact absurd hn (Nat.not_succ_le_zero _)
    | succ n =>
      rw [walk]
      cases hnext : p.next with
      | none =>
        obtain rfl : ps = [] := by
          rw [hnext] at hrest
          cases ps with
          | nil => rfl
          | cons q ps => cases hrest.1
        rfl
      | some q =>
        rw [hnext] at hrest
        exact congrArg _ (ih hrest (Nat.le_of_succ_le_succ hn))

/-- A repetition has at most 235 positions: a gap, 18 bursts of twelve half-cycles, and 18 pauses. -/
theorem length_repetitionOrder_le (c : Channel) (r : Fin 5) : (repetitionOrder c r).length ≤ 235 := by
  have hgap : ((if gapUs r c = 0 then [] else [.gap r]) : List Pos).length ≤ 1 := by split <;> simp
  have hbit (b : Fin 16) : (dataBitOrder r b).length = 13 := rfl
  have hbits : (bitOrder.flatMap (dataBitOrder r)).length = 208 := by
    simp only [List.length_flatMap, hbit]
    rfl
  have hhalves : halves.length = 12 := rfl
  simp only [repetitionOrder, List.length_append, List.length_map, List.length_singleton, hbits, hhalves]
  omega

/-- Settles O31: five repetitions make at most 1175 positions. -/
theorem sequencerFollowsSendOrder : Obligations.SequencerFollowsSendOrder := by
  intro c
  refine walk_of_leads (leads_sendOrder c) ?_
  have h := List.sum_le_card_nsmul (repetitions.map fun r => (repetitionOrder c r).length) 235
    (by simpa using fun r _ => length_repetitionOrder_le c r)
  rw [sendOrder_eq_flatMap, List.length_flatMap]
  exact h.trans (by simp [repetitions])

/-! ## The shape of the trace -/

/-- Two pin writes in each of six cycles, with their half-period delays when these are applied (R165). -/
theorem length_burstTrace (k : Config) (p : PinId) :
    (burstTrace k p).length = if k.halfPeriodEn then 24 else 12 := by
  simp only [burstTrace, cycleTrace, halfDelay]
  split <;> rfl

/-- Eighteen bursts, each with its pause. -/
theorem length_messageTrace (k : Config) (p : PinId) (m : Message) :
    (messageTrace k p m).length = if k.halfPeriodEn then 450 else 234 := by
  simp only [messageTrace, startStopTrace, dataBitTrace, List.length_append, List.length_flatMap, length_burstTrace,
    List.length_singleton, List.map_const', List.sum_replicate]
  split <;> rfl

/-- Twelve pin writes, whether the half-period delay is applied or not (R165). -/
theorem pinWrites_burstTrace (k : Config) (p : PinId) : pinWrites (burstTrace k p) = 12 := by
  simp only [burstTrace, cycleTrace, halfDelay]
  split <;> rfl

theorem pinWrites_append (t t' : List Action) : pinWrites (t ++ t') = pinWrites t + pinWrites t' :=
  List.countP_append

theorem pinWrites_flatMap {α : Type} (l : List α) (f : α → List Action) :
    pinWrites (l.flatMap f) = (l.map fun x => pinWrites (f x)).sum :=
  List.countP_flatMap

theorem pinWrites_delay (d : Nat) : pinWrites [.delay d] = 0 :=
  rfl

/-- Only its eighteen bursts write the pin. -/
theorem pinWrites_messageTrace (k : Config) (p : PinId) (m : Message) : pinWrites (messageTrace k p m) = 216 := by
  simp only [messageTrace, startStopTrace, dataBitTrace, pinWrites_append, pinWrites_flatMap, pinWrites_burstTrace,
    pinWrites_delay, List.map_const', List.sum_replicate]
  rfl

theorem pinWrites_gapTrace (c : Channel) (r : Fin 5) : pinWrites (gapTrace c r) = 0 := by
  unfold gapTrace
  split <;> rfl

theorem getLast?_messageTrace (k : Config) (p : PinId) (m : Message) :
    (messageTrace k p m).getLast? = some (.delay k.startStopPause) := by
  simp only [messageTrace, startStopTrace, ← List.append_assoc]
  exact List.getLast?_concat ..

/-- Four gaps on channel 3, five on the others (R164). -/
theorem sum_length_gapTrace (c : Channel) :
    (repetitions.map fun r => (gapTrace c r).length).sum = 5 - if c = 3 then 1 else 0 := by
  revert c; decide

theorem length_sendTrace (k : Config) (p : PinId) (c : Channel) (m : Message) :
    (sendTrace k p c m).length = (if k.halfPeriodEn then 2255 else 1175) - if c = 3 then 1 else 0 := by
  have hlength : (sendTrace k p c m).length =
      (5 - if c = 3 then 1 else 0) + 5 * if k.halfPeriodEn then 450 else 234 := by
    simp only [sendTrace, List.length_flatMap, List.length_append, List.sum_map_add, sum_length_gapTrace,
      length_messageTrace, List.map_const', List.sum_replicate]
    rfl
  rw [hlength]
  split <;> split <;> rfl

theorem pinWrites_sendTrace (k : Config) (p : PinId) (c : Channel) (m : Message) :
    pinWrites (sendTrace k p c m) = 1080 := by
  simp only [sendTrace, pinWrites_flatMap, pinWrites_append, pinWrites_gapTrace, pinWrites_messageTrace,
    List.map_const', List.sum_replicate]
  rfl

/-- The first gap is a delay on every channel but 3 (R164). -/
theorem gapTrace_zero_of_ne {c : Channel} (h : c ≠ 3) : gapTrace c 0 = [.delay (gapUs 0 c)] :=
  if_neg fun h0 => h ((gapUs_eq_zero_iff 0 c).1 h0).2

/-- The first action is the gap's, or the first pin write where the gap is skipped. -/
theorem head?_sendTrace (k : Config) (p : PinId) (c : Channel) (m : Message) :
    (sendTrace k p c m).head? = some (if c = 3 then .pinWrite p .high else .delay (gapUs 0 c)) := by
  by_cases h : c = 3
  · rw [if_pos h, h]
    rfl
  · rw [if_neg h, sendTrace, repetitions, List.flatMap_cons, gapTrace_zero_of_ne h]
    rfl

/-- Settles O45: counting piece by piece. -/
theorem sendTraceShape : Obligations.SendTraceShape := by
  intro k p c m
  refine ⟨length_sendTrace k p c m, pinWrites_sendTrace k p c m, head?_sendTrace k p c m, ?_⟩
  simp [sendTrace, repetitions, List.getLast?_append, getLast?_messageTrace]

/-! ## The merged form -/

/-- Putting a segment before a merged waveform adds its ticks in front (R174). -/
theorem samples_consMerged (g : Segment) (w : List Segment) :
    samples (consMerged g w) = List.replicate g.ticks g.level ++ samples w := by
  cases w with
  | nil => rfl
  | cons h w =>
    by_cases heq : g.level = h.level
    · rw [consMerged, if_pos heq]
      simp only [samples, List.flatMap_cons, ← heq, List.replicate_add, List.append_assoc]
    · rw [consMerged, if_neg heq]
      rfl

/-- A merged waveform stays one: a segment of the level of the first is joined to it, so the first level stays. -/
theorem isChain_consMerged (g : Segment) {w : List Segment} (hw : w.IsChain fun g h => g.level ≠ h.level) :
    (consMerged g w).IsChain fun g h => g.level ≠ h.level := by
  cases w with
  | nil => exact .singleton g
  | cons h w =>
    by_cases heq : g.level = h.level
    case neg =>
      rw [consMerged, if_neg heq]
      exact .cons_cons heq hw
    case pos =>
      rw [consMerged, if_pos heq]
      cases w with
      | nil => exact .singleton _
      | cons h' w =>
        obtain ⟨hne, hw⟩ := List.isChain_cons_cons.1 hw
        exact .cons_cons (heq ▸ hne) hw

/-- Settles O46, segment by segment. -/
theorem mergingKeepsTheLine : Obligations.MergingKeepsTheLine := by
  intro w
  induction w with
  | nil => exact ⟨rfl, .nil⟩
  | cons g w ih =>
    obtain ⟨hsamples, hchain⟩ := ih
    refine ⟨?_, isChain_consMerged g hchain⟩
    rw [merged, samples_consMerged, hsamples]
    rfl

/-! ## Durations -/

/-- Settles O47: the waveform is that of the positions, and these last `T` ticks. -/
theorem sendLastsT : Obligations.SendLastsT := by
  intro k p c m
  rw [waveform_send, totalTicks_sendOrder]

theorem highTicks_flatMap {α : Type} (l : List α) (f : α → List Segment) :
    highTicks (l.flatMap f) = (l.map fun x => highTicks (f x)).sum := by
  simp [highTicks, List.filter_flatMap, totalTicks_flatMap]

/-- Six of the twelve half-cycles of a burst are high (R29). -/
theorem highTicks_burst {k : Config} {c : Channel} {m : Message} {b : Fin 12 → Pos}
    (h : ∀ i, seg k c m (b i) = ⟨halfLevel i, tHalf k⟩) : highTicks ((halves.map b).map (seg k c m)) = 6 * tHalf k := by
  simp [highTicks, totalTicks, halves, h, halfLevel]
  ring

/-- Gaps and pauses are low (R178). -/
theorem highTicks_pause {p : Pos} (h : p.isPause = true) (k : Config) (c : Channel) (m : Message) :
    highTicks ([p].map (seg k c m)) = 0 := by
  simp [highTicks, totalTicks, seg_level_of_isPause h]

theorem highTicks_dataBit (k : Config) (c : Channel) (m : Message) (r : Fin 5) (b : Fin 16) :
    highTicks ((dataBitOrder r b).map (seg k c m)) = 6 * tHalf k := by
  rw [dataBitOrder, List.map_append, highTicks_append, highTicks_burst fun _ => rfl, highTicks_pause rfl,
    Nat.add_zero]

/-- The eighteen bursts of a repetition are high for 108 half-cycles, whatever the bits are. -/
theorem highTicks_repetition (k : Config) (c : Channel) (m : Message) (r : Fin 5) :
    highTicks ((repetitionOrder c r).map (seg k c m)) = 108 * tHalf k := by
  have hgap : highTicks (((if gapUs r c = 0 then [] else [.gap r]) : List Pos).map (seg k c m)) = 0 := by
    split
    · rfl
    · exact highTicks_pause rfl ..
  have hbits : highTicks ((bitOrder.flatMap (dataBitOrder r)).map (seg k c m)) = 16 * (6 * tHalf k) := by
    rw [List.map_flatMap, highTicks_flatMap]
    simp only [highTicks_dataBit, List.map_const', List.sum_replicate]
    rfl
  simp only [repetitionOrder, List.map_append, highTicks_append]
  rw [hgap, hbits, highTicks_pause rfl, highTicks_pause rfl, highTicks_burst fun _ => rfl,
    highTicks_burst fun _ => rfl]
  ring

/-- Settles O48: only the bursts are high, and they do not depend on the message. -/
theorem highTimeIsConstant : Obligations.HighTimeIsConstant := by
  intro k p c m
  rw [waveform_send, sendOrder_eq_flatMap, List.map_flatMap, highTicks_flatMap]
  simp only [highTicks_repetition, repetitions, List.map_const', List.sum_replicate, List.length_cons, List.length_nil]
  ring

end Sys2Proof.Machine
end

section
/-! The proofs of the family `60_exceptions` (spec/60_exceptions.md R202 to R212): where a step can stop. Only a
configuration that is not well formed and the acceptance of a word stop it, and an accepted command has one fault. -/

namespace Sys2Proof.Machine

/-! ## A command -/

/-- A command faults exactly when it transmits in a block that is not initialised (R203); INIT never does (R101). -/
theorem exec_fault_iff {i : Instr} {s : State} {e : Fault} :
    exec i s = .fault e ↔ i.transmits = true ∧ s.cfgValid = false ∧ e = .useBeforeInit := by
  cases hi : i.transmits with
  | false =>
    cases i with
    | init p c => simp [exec_init]
    | _ => cases hi
  | true =>
    obtain ⟨f, -, hexec, -⟩ := exec_of_transmits s hi
    simp [hexec, State.transmit_fault_iff]

/-- No command is refused once its word is decoded. -/
theorem exec_not_refused (i : Instr) (s : State) (r : Refusal) : exec i s ≠ .refused r := by
  cases i with
  | init p c => simp [exec_init]
  | _ => exact State.transmit_not_refused s _ r

/-- Settles O17: the fault of a transmit command. -/
theorem transmitBeforeInitFaults : Obligations.TransmitBeforeInitFaults :=
  fun _ _ hi hcfg => exec_fault_iff.2 ⟨hi, hcfg, rfl⟩

/-! ## A step -/

/-- Settles O7: the configuration is asked before the inputs are looked at. -/
theorem badConfigRunsNothing : Obligations.BadConfigRunsNothing := by
  intro s hk
  rw [step, State.tick, hk]
  rfl

/-- A step in which the host asserts `rst`, whatever else it offers (R181 case 1, R230). -/
theorem step_of_reset {s : State} (hk : s.k.wf = true) (hr : s.portInput.rst = true) :
    step s = .next s.takeInput.resetStep := by
  simp [step, State.tick, hk, State.stepWith, hr]

/-- Under a well-formed configuration a step goes on or accepts a word: the reset, the busy and the idle case of R181
answer a next state from every state. -/
theorem step_next_or_accepts {s : State} (hk : s.k.wf = true) :
    (∃ t, step s = .next t) ∨ ∃ w, s.Accepts w ∧ step s = s.takeInput.accept w := by
  cases hrst : s.portInput.rst with
  | true => exact .inl ⟨_, step_of_reset hk hrst⟩
  | false =>
    by_cases hidle : s.pos = .idle
    case neg => exact .inl ⟨_, step_of_busy hk hrst hidle⟩
    case pos =>
      cases hvalid : s.portInput.cmdValid with
      | false => exact .inl ⟨_, idleStepChangesNothing s hk hrst hidle hvalid⟩
      | true =>
        have hacc : s.Accepts s.portInput.cmdWord := ⟨hrst, hidle, hvalid, rfl⟩
        exact .inr ⟨_, hacc, step_of_accepts hk hacc⟩

/-- An acceptance faults exactly when the command it decodes does: the check for a reserved word refuses (R212). -/
theorem accept_fault_iff {s : State} {w : CmdWord} {e : Fault} :
    s.accept w = .fault e ↔ ∃ i, decode w = .ok i ∧ exec i s = .fault e := by
  cases hdec : decode w <;> simp [State.accept, hdec]

/-- An acceptance refuses exactly the reserved words (R88, R204). -/
theorem accept_refused_iff {s : State} {w : CmdWord} {r : Refusal} :
    s.accept w = .refused r ↔ r = .reservedCommand ∧ IsReserved w := by
  rw [← decode_error_iff]
  cases hdec : decode w with
  | ok i => simp [State.accept, hdec, exec_not_refused]
  | error e => simp [State.accept, hdec, eq_comm]

/-- A step that faults accepts a word, and it is the command of this word that faults (R202, R203). -/
theorem accepts_of_step_fault {s : State} {e : Fault} (h : step s = .fault e) :
    ∃ w i, s.Accepts w ∧ decode w = .ok i ∧ exec i s.takeInput = .fault e := by
  cases hk : s.k.wf with
  | false => simp [badConfigRunsNothing s hk] at h
  | true =>
    obtain ⟨t, ht⟩ | ⟨w, hacc, hstep⟩ := step_next_or_accepts hk
    · simp [ht] at h
    · obtain ⟨i, hdec, hexec⟩ := accept_fault_iff.1 (hstep.symm.trans h)
      exact ⟨w, i, hacc, hdec, hexec⟩

/-- Settles O14: the fault is that of the accepted command, the refusal that of the configuration or of the word. -/
theorem onlyAcceptanceStops : Obligations.OnlyAcceptanceStops := by
  refine ⟨fun s e h => ?fault, fun s r h => ?refusal⟩
  case fault =>
    obtain ⟨w, i, hacc, hdec, hexec⟩ := accepts_of_step_fault h
    obtain ⟨hi, hcfg, rfl⟩ := exec_fault_iff.1 hexec
    exact ⟨rfl, hcfg, w, i, hacc, not_isReserved_of_encode (decode_eq_ok_iff.1 hdec), hdec, hi⟩
  case refusal =>
    cases hk : s.k.wf with
    | false =>
      rw [badConfigRunsNothing s hk] at h
      cases h
      exact .inl ⟨rfl, rfl⟩
    | true =>
      obtain ⟨t, ht⟩ | ⟨w, hacc, hstep⟩ := step_next_or_accepts hk
      · simp [ht] at h
      · obtain ⟨rfl, hres⟩ := accept_refused_iff.1 (hstep.symm.trans h)
        exact .inr ⟨rfl, w, hacc, hres⟩

end Sys2Proof.Machine
end

section
/-! The proof of the family `70_reset_and_hazards` (spec/70_reset_and_hazards.md R230): what a step with `rst` answers. -/

namespace Sys2Proof.Machine

/-- Settles O10: `rst` is the first case of R181, so `step_of_reset` gives the next state before the position or the
offered word is looked at, and each register is the one `State.resetStep` writes (or, for the configuration and the host,
leaves as `State.takeInput` has it). -/
theorem resetStepWins : Obligations.ResetStepWins := by
  intro s hk hrst
  refine ⟨s.takeInput.resetStep, step_of_reset hk hrst, State.resetStep_cfgValid _, State.resetStep_oe _,
    State.resetStep_out _, State.resetStep_pos _, State.resetStep_timer _, ?config, ?host⟩
  case config => rw [State.resetStep_k, State.takeInput_k]
  case host => rw [State.resetStep_host, State.takeInput_host]

end Sys2Proof.Machine
end
